-- ==== Sys2Proof/Word.lean ====
section
/-! DEFINITION. The two word types of the core (R9, R11): `u8` and `u16`. -/
namespace Sys2Proof

/-- `u8` (R11). -/
abbrev Byte := BitVec 8

/-- `u16` (R11). -/
abbrev Word := BitVec 16

end Sys2Proof
end

