-- ==== Sys2Proof/Syntax.lean ====
section
/-! DEFINITION. The instructions: one constructor per row of spec/opcode_table.json, in the table's order (R107).

An operand is what R94 reads from the instruction stream: `n` a byte, `nn` a word, `e` a signed displacement (an
integer, since the core adds it to an unbounded integer, R181; `Instr.wf` bounds it). -/
namespace Sys2Proof

/-- One constructor per row of spec/opcode_table.json. The comment after each gives the spec's own spelling. -/
inductive Instr where
  | nop  -- NOP
  | ldBCImm16 (nn : Word)  -- LD BC,nn
  | ldAtBCA  -- LD (BC),A
  | incB  -- INC B
  | ldBImm (n : Byte)  -- LD B,n
  | ldAAtBC  -- LD A,(BC)
  | incC  -- INC C
  | ldCImm (n : Byte)  -- LD C,n
  | ldDEImm16 (nn : Word)  -- LD DE,nn
  | ldAtDEA  -- LD (DE),A
  | incD  -- INC D
  | ldDImm (n : Byte)  -- LD D,n
  | ldAAtDE  -- LD A,(DE)
  | incE  -- INC E
  | ldEImm (n : Byte)  -- LD E,n
  | jrNZ (e : Int)  -- JR NZ,e
  | ldHLImm16 (nn : Word)  -- LD HL,nn
  | incH  -- INC H
  | ldHImm (n : Byte)  -- LD H,n
  | jrZ (e : Int)  -- JR Z,e
  | incL  -- INC L
  | ldLImm (n : Byte)  -- LD L,n
  | cpl  -- CPL
  | jrNC (e : Int)  -- JR NC,e
  | ldSPImm16 (nn : Word)  -- LD SP,nn
  | scf  -- SCF
  | jrC (e : Int)  -- JR C,e
  | incA  -- INC A
  | ldAImm (n : Byte)  -- LD A,n
  | ccf  -- CCF
  | ldBB  -- LD B,B
  | ldBC  -- LD B,C
  | ldBD  -- LD B,D
  | ldBE  -- LD B,E
  | ldBH  -- LD B,H
  | ldBL  -- LD B,L
  | ldBAtHL  -- LD B,(HL)
  | ldBA  -- LD B,A
  | ldCB  -- LD C,B
  | ldCC  -- LD C,C
  | ldCD  -- LD C,D
  | ldCE  -- LD C,E
  | ldCH  -- LD C,H
  | ldCL  -- LD C,L
  | ldCAtHL  -- LD C,(HL)
  | ldCA  -- LD C,A
  | ldDB  -- LD D,B
  | ldDC  -- LD D,C
  | ldDD  -- LD D,D
  | ldDE  -- LD D,E
  | ldDH  -- LD D,H
  | ldDL  -- LD D,L
  | ldDAtHL  -- LD D,(HL)
  | ldDA  -- LD D,A
  | ldEB  -- LD E,B
  | ldEC  -- LD E,C
  | ldED  -- LD E,D
  | ldEE  -- LD E,E
  | ldEH  -- LD E,H
  | ldEL  -- LD E,L
  | ldEAtHL  -- LD E,(HL)
  | ldEA  -- LD E,A
  | ldHB  -- LD H,B
  | ldHC  -- LD H,C
  | ldHD  -- LD H,D
  | ldHE  -- LD H,E
  | ldHH  -- LD H,H
  | ldHL  -- LD H,L
  | ldHAtHL  -- LD H,(HL)
  | ldHA  -- LD H,A
  | ldLB  -- LD L,B
  | ldLC  -- LD L,C
  | ldLD  -- LD L,D
  | ldLE  -- LD L,E
  | ldLH  -- LD L,H
  | ldLL  -- LD L,L
  | ldLAtHL  -- LD L,(HL)
  | ldLA  -- LD L,A
  | ldAtHLB  -- LD (HL),B
  | ldAtHLC  -- LD (HL),C
  | ldAtHLD  -- LD (HL),D
  | ldAtHLE  -- LD (HL),E
  | ldAtHLH  -- LD (HL),H
  | ldAtHLL  -- LD (HL),L
  | ldAtHLA  -- LD (HL),A
  | ldAB  -- LD A,B
  | ldAC  -- LD A,C
  | ldAD  -- LD A,D
  | ldAE  -- LD A,E
  | ldAH  -- LD A,H
  | ldAL  -- LD A,L
  | ldAAtHL  -- LD A,(HL)
  | ldAA  -- LD A,A
  | andB  -- AND B
  | andC  -- AND C
  | andD  -- AND D
  | andE  -- AND E
  | andH  -- AND H
  | andL  -- AND L
  | andAtHL  -- AND (HL)
  | andA  -- AND A
  | xorB  -- XOR B
  | xorC  -- XOR C
  | xorD  -- XOR D
  | xorE  -- XOR E
  | xorH  -- XOR H
  | xorL  -- XOR L
  | xorAtHL  -- XOR (HL)
  | xorA  -- XOR A
  | orB  -- OR B
  | orC  -- OR C
  | orD  -- OR D
  | orE  -- OR E
  | orH  -- OR H
  | orL  -- OR L
  | orAtHL  -- OR (HL)
  | orA  -- OR A
  | jp (nn : Word)  -- JP nn
  | call (nn : Word)  -- CALL nn
  | andImm (n : Byte)  -- AND n
  | xorImm (n : Byte)  -- XOR n
  | orImm (n : Byte)  -- OR n
  | ldSPHL  -- LD SP,HL
  | bit0B  -- BIT 0,B
  | bit0C  -- BIT 0,C
  | bit0D  -- BIT 0,D
  | bit0E  -- BIT 0,E
  | bit0H  -- BIT 0,H
  | bit0L  -- BIT 0,L
  | bit0A  -- BIT 0,A
  | bit1B  -- BIT 1,B
  | bit1C  -- BIT 1,C
  | bit1D  -- BIT 1,D
  | bit1E  -- BIT 1,E
  | bit1H  -- BIT 1,H
  | bit1L  -- BIT 1,L
  | bit1A  -- BIT 1,A
  | bit2B  -- BIT 2,B
  | bit2C  -- BIT 2,C
  | bit2D  -- BIT 2,D
  | bit2E  -- BIT 2,E
  | bit2H  -- BIT 2,H
  | bit2L  -- BIT 2,L
  | bit2A  -- BIT 2,A
  | bit3B  -- BIT 3,B
  | bit3C  -- BIT 3,C
  | bit3D  -- BIT 3,D
  | bit3E  -- BIT 3,E
  | bit3H  -- BIT 3,H
  | bit3L  -- BIT 3,L
  | bit3A  -- BIT 3,A
  | bit4B  -- BIT 4,B
  | bit4C  -- BIT 4,C
  | bit4D  -- BIT 4,D
  | bit4E  -- BIT 4,E
  | bit4H  -- BIT 4,H
  | bit4L  -- BIT 4,L
  | bit4A  -- BIT 4,A
  | bit5B  -- BIT 5,B
  | bit5C  -- BIT 5,C
  | bit5D  -- BIT 5,D
  | bit5E  -- BIT 5,E
  | bit5H  -- BIT 5,H
  | bit5L  -- BIT 5,L
  | bit5A  -- BIT 5,A
  | bit6B  -- BIT 6,B
  | bit6C  -- BIT 6,C
  | bit6D  -- BIT 6,D
  | bit6E  -- BIT 6,E
  | bit6H  -- BIT 6,H
  | bit6L  -- BIT 6,L
  | bit6A  -- BIT 6,A
  | bit7B  -- BIT 7,B
  | bit7C  -- BIT 7,C
  | bit7D  -- BIT 7,D
  | bit7E  -- BIT 7,E
  | bit7H  -- BIT 7,H
  | bit7L  -- BIT 7,L
  | bit7A  -- BIT 7,A
  deriving DecidableEq, Repr

end Sys2Proof
end

