-- ==== Sys2Proof/Machine/Form.lean ====
section
/-! DEFINITION. The names of registers, pairs, flags and operand fields (R12, R22, R27, R95 to R98), and the 21 forms
of the opcode table's "form" column with their fields: `Instr.form` sorts the 179 rows into them. -/
namespace Sys2Proof

/-- The eight 8-bit registers (R12, R21). -/
inductive Reg where
  | a | b | c | d | e | f | h | l
  deriving DecidableEq, Repr

/-- The four derived pairs (R22). -/
inductive Pair where
  | af | bc | de | hl
  deriving DecidableEq, Repr

/-- The four flags (R27). -/
inductive Flag where
  | z | n | h | c
  deriving DecidableEq, Repr

/-- An 8-bit register operand `r` or `r'`: B, C, D, E, H, L or A, never F (R23, R95). -/
inductive R8 where
  | b | c | d | e | h | l | a
  deriving DecidableEq, Repr

/-- The destination pair of LD rr,nn: `dd` other than 11 (R96, R99, R128). -/
inductive PairOp where
  | bc | de | hl
  deriving DecidableEq, Repr

/-- The pointer of a load between A and memory: the field `p` (R96, R124 to R127). -/
inductive Ptr where
  | bc | de
  deriving DecidableEq, Repr

/-- The condition of JR: the field `cc` (R97). -/
inductive Cond where
  | nz | z | nc | c
  deriving DecidableEq, Repr

/-- The three logic operations (R150). -/
inductive LogicOp where
  | and | or | xor
  deriving DecidableEq, Repr

/-- A form of the opcode table with its operand fields (R91, R99, R100, R107). -/
inductive Form where
  | nop
  | ldRN (r : R8) (n : Byte)
  | ldRR (r r' : R8)
  | ldRHL (r : R8)
  | ldHLR (r : R8)
  | ldAPtr (p : Ptr)
  | ldPtrA (p : Ptr)
  | ldPairNN (p : PairOp) (nn : Word)
  | ldSPNN (nn : Word)
  | ldSPHL
  | logicR (op : LogicOp) (r : R8)
  | logicHL (op : LogicOp)
  | logicN (op : LogicOp) (n : Byte)
  | incR (r : R8)
  | cpl
  | ccf
  | scf
  | jp (nn : Word)
  | jr (cc : Cond) (e : Int)
  | call (nn : Word)
  | bit (b : Fin 8) (r : R8)
  deriving DecidableEq, Repr

/-- The form of each row: its "form" and "source_fields" in spec/opcode_table.json. -/
def Instr.form : Instr → Form
  | .nop => .nop
  | .ldBCImm16 nn => .ldPairNN .bc nn
  | .ldAtBCA => .ldPtrA .bc
  | .incB => .incR .b
  | .ldBImm n => .ldRN .b n
  | .ldAAtBC => .ldAPtr .bc
  | .incC => .incR .c
  | .ldCImm n => .ldRN .c n
  | .ldDEImm16 nn => .ldPairNN .de nn
  | .ldAtDEA => .ldPtrA .de
  | .incD => .incR .d
  | .ldDImm n => .ldRN .d n
  | .ldAAtDE => .ldAPtr .de
  | .incE => .incR .e
  | .ldEImm n => .ldRN .e n
  | .jrNZ e => .jr .nz e
  | .ldHLImm16 nn => .ldPairNN .hl nn
  | .incH => .incR .h
  | .ldHImm n => .ldRN .h n
  | .jrZ e => .jr .z e
  | .incL => .incR .l
  | .ldLImm n => .ldRN .l n
  | .cpl => .cpl
  | .jrNC e => .jr .nc e
  | .ldSPImm16 nn => .ldSPNN nn
  | .scf => .scf
  | .jrC e => .jr .c e
  | .incA => .incR .a
  | .ldAImm n => .ldRN .a n
  | .ccf => .ccf
  | .ldBB => .ldRR .b .b
  | .ldBC => .ldRR .b .c
  | .ldBD => .ldRR .b .d
  | .ldBE => .ldRR .b .e
  | .ldBH => .ldRR .b .h
  | .ldBL => .ldRR .b .l
  | .ldBAtHL => .ldRHL .b
  | .ldBA => .ldRR .b .a
  | .ldCB => .ldRR .c .b
  | .ldCC => .ldRR .c .c
  | .ldCD => .ldRR .c .d
  | .ldCE => .ldRR .c .e
  | .ldCH => .ldRR .c .h
  | .ldCL => .ldRR .c .l
  | .ldCAtHL => .ldRHL .c
  | .ldCA => .ldRR .c .a
  | .ldDB => .ldRR .d .b
  | .ldDC => .ldRR .d .c
  | .ldDD => .ldRR .d .d
  | .ldDE => .ldRR .d .e
  | .ldDH => .ldRR .d .h
  | .ldDL => .ldRR .d .l
  | .ldDAtHL => .ldRHL .d
  | .ldDA => .ldRR .d .a
  | .ldEB => .ldRR .e .b
  | .ldEC => .ldRR .e .c
  | .ldED => .ldRR .e .d
  | .ldEE => .ldRR .e .e
  | .ldEH => .ldRR .e .h
  | .ldEL => .ldRR .e .l
  | .ldEAtHL => .ldRHL .e
  | .ldEA => .ldRR .e .a
  | .ldHB => .ldRR .h .b
  | .ldHC => .ldRR .h .c
  | .ldHD => .ldRR .h .d
  | .ldHE => .ldRR .h .e
  | .ldHH => .ldRR .h .h
  | .ldHL => .ldRR .h .l
  | .ldHAtHL => .ldRHL .h
  | .ldHA => .ldRR .h .a
  | .ldLB => .ldRR .l .b
  | .ldLC => .ldRR .l .c
  | .ldLD => .ldRR .l .d
  | .ldLE => .ldRR .l .e
  | .ldLH => .ldRR .l .h
  | .ldLL => .ldRR .l .l
  | .ldLAtHL => .ldRHL .l
  | .ldLA => .ldRR .l .a
  | .ldAtHLB => .ldHLR .b
  | .ldAtHLC => .ldHLR .c
  | .ldAtHLD => .ldHLR .d
  | .ldAtHLE => .ldHLR .e
  | .ldAtHLH => .ldHLR .h
  | .ldAtHLL => .ldHLR .l
  | .ldAtHLA => .ldHLR .a
  | .ldAB => .ldRR .a .b
  | .ldAC => .ldRR .a .c
  | .ldAD => .ldRR .a .d
  | .ldAE => .ldRR .a .e
  | .ldAH => .ldRR .a .h
  | .ldAL => .ldRR .a .l
  | .ldAAtHL => .ldRHL .a
  | .ldAA => .ldRR .a .a
  | .andB => .logicR .and .b
  | .andC => .logicR .and .c
  | .andD => .logicR .and .d
  | .andE => .logicR .and .e
  | .andH => .logicR .and .h
  | .andL => .logicR .and .l
  | .andAtHL => .logicHL .and
  | .andA => .logicR .and .a
  | .xorB => .logicR .xor .b
  | .xorC => .logicR .xor .c
  | .xorD => .logicR .xor .d
  | .xorE => .logicR .xor .e
  | .xorH => .logicR .xor .h
  | .xorL => .logicR .xor .l
  | .xorAtHL => .logicHL .xor
  | .xorA => .logicR .xor .a
  | .orB => .logicR .or .b
  | .orC => .logicR .or .c
  | .orD => .logicR .or .d
  | .orE => .logicR .or .e
  | .orH => .logicR .or .h
  | .orL => .logicR .or .l
  | .orAtHL => .logicHL .or
  | .orA => .logicR .or .a
  | .jp nn => .jp nn
  | .call nn => .call nn
  | .andImm n => .logicN .and n
  | .xorImm n => .logicN .xor n
  | .orImm n => .logicN .or n
  | .ldSPHL => .ldSPHL
  | .bit0B => .bit 0 .b
  | .bit0C => .bit 0 .c
  | .bit0D => .bit 0 .d
  | .bit0E => .bit 0 .e
  | .bit0H => .bit 0 .h
  | .bit0L => .bit 0 .l
  | .bit0A => .bit 0 .a
  | .bit1B => .bit 1 .b
  | .bit1C => .bit 1 .c
  | .bit1D => .bit 1 .d
  | .bit1E => .bit 1 .e
  | .bit1H => .bit 1 .h
  | .bit1L => .bit 1 .l
  | .bit1A => .bit 1 .a
  | .bit2B => .bit 2 .b
  | .bit2C => .bit 2 .c
  | .bit2D => .bit 2 .d
  | .bit2E => .bit 2 .e
  | .bit2H => .bit 2 .h
  | .bit2L => .bit 2 .l
  | .bit2A => .bit 2 .a
  | .bit3B => .bit 3 .b
  | .bit3C => .bit 3 .c
  | .bit3D => .bit 3 .d
  | .bit3E => .bit 3 .e
  | .bit3H => .bit 3 .h
  | .bit3L => .bit 3 .l
  | .bit3A => .bit 3 .a
  | .bit4B => .bit 4 .b
  | .bit4C => .bit 4 .c
  | .bit4D => .bit 4 .d
  | .bit4E => .bit 4 .e
  | .bit4H => .bit 4 .h
  | .bit4L => .bit 4 .l
  | .bit4A => .bit 4 .a
  | .bit5B => .bit 5 .b
  | .bit5C => .bit 5 .c
  | .bit5D => .bit 5 .d
  | .bit5E => .bit 5 .e
  | .bit5H => .bit 5 .h
  | .bit5L => .bit 5 .l
  | .bit5A => .bit 5 .a
  | .bit6B => .bit 6 .b
  | .bit6C => .bit 6 .c
  | .bit6D => .bit 6 .d
  | .bit6E => .bit 6 .e
  | .bit6H => .bit 6 .h
  | .bit6L => .bit 6 .l
  | .bit6A => .bit 6 .a
  | .bit7B => .bit 7 .b
  | .bit7C => .bit 7 .c
  | .bit7D => .bit 7 .d
  | .bit7E => .bit 7 .e
  | .bit7H => .bit 7 .h
  | .bit7L => .bit 7 .l
  | .bit7A => .bit 7 .a

/-- The length in bytes: formats F1 to F5 (R90, R91). -/
def Form.length : Form → Nat
  | .nop | .ldRR _ _ | .ldRHL _ | .ldHLR _ | .ldAPtr _ | .ldPtrA _ | .ldSPHL => 1
  | .logicR _ _ | .logicHL _ | .incR _ | .cpl | .ccf | .scf => 1
  | .ldRN _ _ | .logicN _ _ | .jr _ _ | .bit _ _ => 2
  | .ldPairNN _ _ | .ldSPNN _ | .jp _ | .call _ => 3

/-- The 3-bit register field (R95; log 8). -/
def R8.code : R8 → BitVec 3
  | .b => 0b000 | .c => 0b001 | .d => 0b010 | .e => 0b011 | .h => 0b100 | .l => 0b101 | .a => 0b111

/-- The register an operand field names (R95). -/
def R8.reg : R8 → Reg
  | .b => .b | .c => .c | .d => .d | .e => .e | .h => .h | .l => .l | .a => .a

/-- The 2-bit pair field `dd` (R96; log 8). -/
def PairOp.code : PairOp → BitVec 2
  | .bc => 0b00 | .de => 0b01 | .hl => 0b10

/-- The pair a destination field names (R96). -/
def PairOp.pair : PairOp → Pair
  | .bc => .bc | .de => .de | .hl => .hl

/-- The 1-bit pointer field `p` (R96; log 8). -/
def Ptr.code : Ptr → BitVec 1
  | .bc => 0 | .de => 1

/-- The pair a pointer field names (R96). -/
def Ptr.pair : Ptr → Pair
  | .bc => .bc | .de => .de

/-- The 2-bit condition field `cc` (R97; log 8). -/
def Cond.code : Cond → BitVec 2
  | .nz => 0b00 | .z => 0b01 | .nc => 0b10 | .c => 0b11

/-- The first-named, high register of a pair (R22). -/
def Pair.hi : Pair → Reg
  | .af => .a | .bc => .b | .de => .d | .hl => .h

/-- The second-named, low register of a pair (R22). -/
def Pair.lo : Pair → Reg
  | .af => .f | .bc => .c | .de => .e | .hl => .l

end Sys2Proof
end

