-- ==== Sys2Proof/Machine/Bits.lean ====
section
/-! DEFINITION. Byte order and sign extension: the helpers of R11 that decoding and memory share. -/
namespace Sys2Proof

/-- `hi ++ lo`, the 16-bit value `hi * 256 + lo` (R11). -/
def joinBytes (hi lo : Byte) : Word := hi ++ lo

/-- `w[15:8]` (R11). -/
def hiByte (w : Word) : Byte := w.extractLsb' 8 8

/-- `w[7:0]` (R11). -/
def loByte (w : Word) : Byte := w.extractLsb' 0 8

/-- `sext_16(v)`: the signed integer `v - 256` when bit 7 of the byte is 1, else `v` (R11, R94). -/
def sext16 (v : Byte) : Int := if v.getLsbD 7 then (v.toNat : Int) - 256 else v.toNat

/-- The two's-complement byte of a displacement: what `sext16` reads back for `-128 ≤ e ≤ 127` (R94, R105). -/
def dispByte (e : Int) : Byte := BitVec.ofInt 8 e

end Sys2Proof
end

