-- ==== Sys2Proof/Config.lean ====
section
/-! DEFINITION. The implementation parameters of R9 that the model reads. -/
namespace Sys2Proof.Config

/-- The one escape byte, which selects the extended table (R9, R103, D6; log 8). -/
def escape : Byte := 0xCB

/-- RESET_PC: the spec's value of the one open parameter (R9, R10, D8; log 8). Construction and `init()`
take it as an argument (`Machine.construct`, `Machine.initWith`), so that another value can be used. -/
def resetPc : Word := 0x0100

/-- RESET_SP (R9, R37). -/
def resetSp : Word := 0xFFFE

/-- The number of bytes of memory (R9, R60). -/
def memSize : Nat := 65536

end Sys2Proof.Config
end

