-- ==== Sys2Proof/Machine/State.lean ====
section
/-! DEFINITION. The state of the machine (R20), its reset value (R37, R240), and the reasons a step can stop. -/
namespace Sys2Proof.Machine

/-- The byte store (R60): address and byte, addresses strictly rising, no cell holding 0x00, which is what every
unlisted address reads as (R61; log 7). `Memory.wf` says the form. -/
abbrev Memory := List Host.Cell

/-- The value `step()` returns when it does not fault (R16, R210). -/
inductive Returned where
  /-- `Cycles(n)`: the normal end of an instruction (R243). -/
  | cycles (n : Nat)
  /-- `UndefinedOpcode(bytes, at)`: the fetched byte or bytes without a handler, and the address of the first (R211). -/
  | undefinedOpcode (bytes : List Byte) (start : Word)
  deriving DecidableEq, Repr

/-- Everything the spec gives the machine: the tuple of R20, and the model's own field `returned`. -/
structure State where
  a : Byte
  f : Byte
  b : Byte
  c : Byte
  d : Byte
  e : Byte
  h : Byte
  l : Byte
  sp : Word
  pc : Word
  mem : Memory
  /-- The model's own field (DESIGN CHOICE, log 2): what the most recent step returned (R16), since
  `Host.Outcome.next` carries a state only. No step reads it (R243). -/
  returned : Option Returned
  deriving DecidableEq, Repr

/-- Why the machine stops. -/
inductive Fault where
  /-- OutOfRangeAddress(a) (R14, R212), the only fault the spec has: raised by `checkAddr`, by the word accessors and by
  `loadBlock`. The state after it is unspecified (R214), so none is given: safe (log 3). -/
  | outOfRangeAddress (a : Int)
  deriving DecidableEq, Repr

/-- Why the model gives no answer. -/
inductive Refusal where
  /-- An instruction without a meaning yet. Raised by no arm of `exec` here: safe. -/
  | notModelled (mnemonic : String)
  /-- The host's getFlag or setFlag at a bit position that is no flag, which a model refuses (R36, D17). Raised by
  `getFlagBit` and `setFlagBit` only, never by a step: safe (log 13). -/
  | notAFlag (bit : Nat)
  deriving DecidableEq, Repr

/-- What a step, an instruction or a host operation answers. -/
abbrev Res := Host.Outcome State Fault Refusal

/-- A computation that may raise OutOfRangeAddress (R14). -/
abbrev Checked := Except Fault

/-- The machine after construction with the given RESET_PC (R10, R37, R240). -/
def State.powerOn (resetPc : Word) : State where
  a := 0
  f := 0
  b := 0
  c := 0
  d := 0
  e := 0
  h := 0
  l := 0
  sp := Config.resetSp
  pc := resetPc
  mem := []
  returned := none

/-- The machine right after reset, at the spec's RESET_PC (R37; log 8). -/
def State.reset : State := State.powerOn Config.resetPc

end Sys2Proof.Machine
end

