-- ==== Sys2Proof/Machine/Memory.lean ====
section
/-! DEFINITION. The byte store's operations (R60 to R69): the one place that fixes byte order and range checks. -/
namespace Sys2Proof.Machine

/-- The canonical form from address `lo` on: addresses strictly rising from `lo`, below 65,536, no zero byte. -/
def Memory.wfFrom : Nat → Memory → Bool
  | _, [] => true
  | lo, (a, v) :: rest => decide (lo ≤ a) && decide (a < Config.memSize) && decide (v ≠ 0) && Memory.wfFrom (a + 1) rest

/-- The canonical form of a memory (log 7). -/
def Memory.wf (m : Memory) : Bool := Memory.wfFrom 0 m

/-- The byte at an address; an unlisted address reads 0x00 (R61). -/
def Memory.byteAt : Memory → Nat → Byte
  | [], _ => 0
  | (b, v) :: rest, a => if a = b then v else Memory.byteAt rest a

/-- Set the byte at an address, keeping the canonical form. -/
def Memory.setByte : Memory → Nat → Byte → Memory
  | [], a, v => if v = 0 then [] else [(a, v)]
  | (b, w) :: rest, a, v =>
    if a < b then (if v = 0 then (b, w) :: rest else (a, v) :: (b, w) :: rest)
    else if a = b then (if v = 0 then rest else (a, v) :: rest)
    else (b, w) :: Memory.setByte rest a v

/-- `read8(addr)`, MemRead(addr, 1) (R62). -/
def Memory.read8 (m : Memory) (addr : Word) : Byte := m.byteAt addr.toNat

/-- `write8(addr, byte)`, MemWrite(addr, 1, byte) (R63). -/
def Memory.write8 (m : Memory) (addr : Word) (v : Byte) : Memory := m.setByte addr.toNat v

/-- The range check of an access to `n` bytes at `addr`: `raise OutOfRangeAddress(addr+n-1)` unless all of them lie in
0x0000..0xFFFF (R13, R67; log 9). -/
def checkRange (addr : Word) (n : Nat) : Checked Unit :=
  if addr.toNat + n ≤ Config.memSize then .ok ()
  else .error (.outOfRangeAddress ((addr.toNat : Int) + n - 1))

/-- `readWord(addr)`, MemRead(addr, 2): low byte at addr, high byte at addr+1 (R64, R68). -/
def Memory.readWord (m : Memory) (addr : Word) : Checked Word := do
  checkRange addr 2
  return joinBytes (m.byteAt (addr.toNat + 1)) (m.byteAt addr.toNat)

/-- `writeWord(addr, word)`, MemWrite(addr, 2, word) (R65, R68). -/
def Memory.writeWord (m : Memory) (addr : Word) (w : Word) : Checked Memory := do
  checkRange addr 2
  return (m.setByte addr.toNat (loByte w)).setByte (addr.toNat + 1) (hiByte w)

/-- Copy bytes to rising addresses from `a` on. -/
def Memory.setBytes : Memory → Nat → List Byte → Memory
  | m, _, [] => m
  | m, a, v :: rest => Memory.setBytes (m.setByte a v) (a + 1) rest

/-- `loadBlock(addr, bytes)`: all of the block, or OutOfRangeAddress(addr + k - 1) and no byte (R66, D19; log 9). -/
def Memory.loadBlock (m : Memory) (addr : Word) (bytes : List Byte) : Checked Memory := do
  checkRange addr bytes.length
  return m.setBytes addr.toNat bytes

/-- The bytes at `a`, `a + 1`, …, as many of the next `n` as lie in memory: what a fetch at `a` can see. -/
def Memory.bytesFrom (m : Memory) : Nat → Nat → List Byte
  | _, 0 => []
  | a, n + 1 => if a < Config.memSize then m.byteAt a :: Memory.bytesFrom m (a + 1) n else []

end Sys2Proof.Machine
end

