-- ==== Sys2Proof/Machine/Ops.lean ====
section
/-! DEFINITION. The named operations of R12 to R16: registers and pairs, range-checked addresses, fetches, and the three
ways a step ends. -/
namespace Sys2Proof.Machine

/-- `x[r]` (R12). -/
def State.reg (s : State) : Reg → Byte
  | .a => s.a | .b => s.b | .c => s.c | .d => s.d | .e => s.e | .f => s.f | .h => s.h | .l => s.l

/-- `x[r] <- v` (R12, R21). -/
def State.setReg (s : State) (r : Reg) (v : Byte) : State :=
  match r with
  | .a => { s with a := v }
  | .b => { s with b := v }
  | .c => { s with c := v }
  | .d => { s with d := v }
  | .e => { s with e := v }
  | .f => { s with f := v }
  | .h => { s with h := v }
  | .l => { s with l := v }

/-- `pair(p) = x[hi(p)] ++ x[lo(p)]` (R12, R22). -/
def State.pair (s : State) (p : Pair) : Word := joinBytes (s.reg p.hi) (s.reg p.lo)

/-- `pair(p) <- w`: the high register takes `w[15:8]`, the low one `w[7:0]` (R12, R22). -/
def State.setPair (s : State) (p : Pair) (w : Word) : State :=
  (s.setReg p.hi (hiByte w)).setReg p.lo (loByte w)

/-- Whether an integer lies in 0x0000..0xFFFF (R14). -/
def inAddrRange : Int → Bool
  | .ofNat n => decide (n ≤ 0xFFFF)
  | .negSucc _ => false

/-- `checkaddr(a)`: the one place an address computation raises OutOfRangeAddress; nothing wraps (R14, D7). -/
def checkAddr (v : Int) : Checked Word :=
  if inAddrRange v then .ok (BitVec.ofInt 16 v) else .error (.outOfRangeAddress v)

/-- pc advances over `n` fetched bytes, each by `checkaddr(pc + 1)` (R15; log 5). -/
def State.advance (s : State) : Nat → Checked State
  | 0 => .ok s
  | n + 1 => do
    let next ← checkAddr ((s.pc.toNat : Int) + 1)
    State.advance { s with pc := next } n

/-- `Fetch8()`: the byte at pc, then pc advances by 1 (R15). -/
def State.fetch8 (s : State) : Checked (Byte × State) := do
  let next ← checkAddr ((s.pc.toNat : Int) + 1)
  return (s.mem.read8 s.pc, { s with pc := next })

/-- `Fetch16()`: the little-endian word at pc, then pc advances by 2 (R15). -/
def State.fetch16 (s : State) : Checked (Word × State) := do
  let w ← s.mem.readWord s.pc
  let next ← checkAddr ((s.pc.toNat : Int) + 2)
  return (w, { s with pc := next })

/-- `return Cycles(n)` (R16, R243; log 2). -/
def State.returnCycles (s : State) (n : Nat) : State := { s with returned := some (.cycles n) }

/-- `return UndefinedOpcode(bytes, at)`: recorded, and nothing else changes; no trap is entered and no latch is set, so
the next step is an ordinary one (R211, R217, R218; log 1). -/
def State.returnUndefined (s : State) (bytes : List Byte) (start : Word) : State :=
  { s with returned := some (.undefinedOpcode bytes start) }

/-- Run an instruction of `len` bytes that starts at pc: pc moves past its bytes (its opcode and operand fetches), then
its handler's body runs; a raised OutOfRangeAddress ends the step (R14, R93, R216; log 4). -/
def runHandler (len : Nat) (body : State → Checked State) (s : State) : Res :=
  match s.advance len >>= body with
  | .ok t => .next t
  | .error e => .fault e

/-- A body that raises nothing: an effect, then `return Cycles(n)` (R17). -/
def simply (effect : State → State) (n : Nat) (s : State) : Checked State :=
  .ok ((effect s).returnCycles n)

end Sys2Proof.Machine
end

