-- ==== Sys2Proof/Machine/Operands.lean ====
section
/-! DEFINITION. Every operand form: register, pointer-addressed byte, pair, pointer (R94 to R96). The immediates come with
the instruction. -/
namespace Sys2Proof.Machine

/-- A register operand's value (R95). -/
def State.r8 (s : State) (r : R8) : Byte := s.reg r.reg

/-- Write a register operand (R95). -/
def State.setR8 (s : State) (r : R8) (v : Byte) : State := s.setReg r.reg v

/-- The byte a pair points at: (HL), (BC) or (DE) (R18, R95). -/
def State.loadAt (s : State) (p : Pair) : Byte := s.mem.read8 (s.pair p)

/-- Store a byte where a pair points: the address is `s.pair p` (R123, R126, R127). -/
def State.storeAt (s : State) (p : Pair) (v : Byte) : State := { s with mem := s.mem.write8 (s.pair p) v }

/-- Bit `b` of a register operand, 0 the least significant (R98, R200). -/
def State.bitOf (s : State) (b : Fin 8) (r : R8) : Bool := (s.r8 r).getLsbD b.val

end Sys2Proof.Machine
end

