-- ==== Sys2Proof/Machine/Flags.lean ====
section
/-! DEFINITION. The flags (R27 to R32): every flag test and every flag computation. -/
namespace Sys2Proof.Machine

/-- `mask(f)` (R27). -/
def flagMask : Flag → Byte
  | .z => 0x80 | .n => 0x40 | .h => 0x20 | .c => 0x10

/-- `flag(f)`: the masked bit tested for non-zero (R27, C3). -/
def State.flag (s : State) (f : Flag) : Bool := s.f &&& flagMask f != 0

/-- `setflag(f, b)`: a read-modify-write of one bit of F (R28). -/
def State.setFlag (s : State) (f : Flag) (b : Bool) : State :=
  { s with f := (s.f &&& ~~~ flagMask f) ||| (if b then flagMask f else 0) }

/-- The single assignment to F that R30 gives: bits 3..0 kept, the four flags as given. -/
def assignFlags (f : Byte) (z n h c : Bool) : Byte :=
  (f &&& 0x0F) ||| (if z then 0x80 else 0) ||| (if n then 0x40 else 0) ||| (if h then 0x20 else 0)
    ||| (if c then 0x10 else 0)

/-- The condition of a JR on the flags before the step (R97, R182 to R185). -/
def State.holds (s : State) : Cond → Bool
  | .nz => !s.flag .z
  | .z => s.flag .z
  | .nc => !s.flag .c
  | .c => s.flag .c

/-- The result of a logic operation (R150). -/
def logicResult (op : LogicOp) (x v : Byte) : Byte :=
  match op with
  | .and => x &&& v
  | .or => x ||| v
  | .xor => x ^^^ v

/-- The four flag writes of a logic operation (R150). -/
def State.logicFlags (s : State) (op : LogicOp) (res : Byte) : State :=
  (((s.setFlag .z (res == 0)).setFlag .n false).setFlag .h (op == .and)).setFlag .c false

/-- The three flag writes of INC; C is not written (R160). -/
def State.incFlags (s : State) (old new : Byte) : State :=
  ((s.setFlag .z (new == 0)).setFlag .n false).setFlag .h (old &&& 0x0F == 0x0F)

/-- The three flag writes of BIT; C is not written (R200). -/
def State.bitFlags (s : State) (bit : Bool) : State :=
  ((s.setFlag .z (!bit)).setFlag .n false).setFlag .h true

end Sys2Proof.Machine
end

