-- ==== Sys2Proof/Machine/Alu.lean ====
section
/-! DEFINITION. The logic, increment, flag and no-op instructions (spec/41_alu.md): one shared operation per rule, then
one meaning per row. -/
namespace Sys2Proof.Machine

/-- `Logic(op, v)` (R150). -/
def State.logic (s : State) (op : LogicOp) (v : Byte) : State :=
  let res := logicResult op s.a v
  { s with a := res }.logicFlags op res

/-- AND/OR/XOR r (R151, R154, R157). -/
def opLogicR (op : LogicOp) (r : R8) (s : State) : Res := runHandler 1 (simply (fun t => t.logic op (t.r8 r)) 4) s

/-- AND/OR/XOR (HL) (R152, R155, R158). -/
def opLogicHL (op : LogicOp) (s : State) : Res := runHandler 1 (simply (fun t => t.logic op (t.loadAt .hl)) 8) s

/-- AND/OR/XOR n (R153, R156, R159). -/
def opLogicN (op : LogicOp) (n : Byte) (s : State) : Res := runHandler 2 (simply (fun t => t.logic op n) 8) s

/-- INC r: `x[r] <- (x[r] + 1) mod 256` and Z, N, H (R160). -/
def State.inc (s : State) (r : R8) : State :=
  let old := s.r8 r
  let new := old + 1
  (s.setR8 r new).incFlags old new

/-- INC r (R160). -/
def opIncR (r : R8) (s : State) : Res := runHandler 1 (simply (fun t => t.inc r) 4) s

/-- CPL: `A <- ~A`, N and H set (R161). -/
def opCpl (s : State) : Res :=
  runHandler 1 (simply (fun t => ({ t with a := ~~~ t.a }.setFlag .n true).setFlag .h true) 4) s

/-- CCF: C inverted, N and H cleared (R162). -/
def opCcf (s : State) : Res :=
  runHandler 1 (simply (fun t => ((t.setFlag .c (!t.flag .c)).setFlag .n false).setFlag .h false) 4) s

/-- SCF: C set, N and H cleared (R163). -/
def opScf (s : State) : Res :=
  runHandler 1 (simply (fun t => ((t.setFlag .c true).setFlag .n false).setFlag .h false) 4) s

/-- NOP: the counter advances (R164). -/
def opNop (s : State) : Res := runHandler 1 (simply (fun t => t) 4) s

/-- AND B (R151). -/
def execAndB (s : State) : Res := opLogicR .and .b s

/-- AND C (R151). -/
def execAndC (s : State) : Res := opLogicR .and .c s

/-- AND D (R151). -/
def execAndD (s : State) : Res := opLogicR .and .d s

/-- AND E (R151). -/
def execAndE (s : State) : Res := opLogicR .and .e s

/-- AND H (R151). -/
def execAndH (s : State) : Res := opLogicR .and .h s

/-- AND L (R151). -/
def execAndL (s : State) : Res := opLogicR .and .l s

/-- AND A (R151). -/
def execAndA (s : State) : Res := opLogicR .and .a s

/-- XOR B (R157). -/
def execXorB (s : State) : Res := opLogicR .xor .b s

/-- XOR C (R157). -/
def execXorC (s : State) : Res := opLogicR .xor .c s

/-- XOR D (R157). -/
def execXorD (s : State) : Res := opLogicR .xor .d s

/-- XOR E (R157). -/
def execXorE (s : State) : Res := opLogicR .xor .e s

/-- XOR H (R157). -/
def execXorH (s : State) : Res := opLogicR .xor .h s

/-- XOR L (R157). -/
def execXorL (s : State) : Res := opLogicR .xor .l s

/-- XOR A (R157). -/
def execXorA (s : State) : Res := opLogicR .xor .a s

/-- OR B (R154). -/
def execOrB (s : State) : Res := opLogicR .or .b s

/-- OR C (R154). -/
def execOrC (s : State) : Res := opLogicR .or .c s

/-- OR D (R154). -/
def execOrD (s : State) : Res := opLogicR .or .d s

/-- OR E (R154). -/
def execOrE (s : State) : Res := opLogicR .or .e s

/-- OR H (R154). -/
def execOrH (s : State) : Res := opLogicR .or .h s

/-- OR L (R154). -/
def execOrL (s : State) : Res := opLogicR .or .l s

/-- OR A (R154). -/
def execOrA (s : State) : Res := opLogicR .or .a s

/-- AND (HL) (R152). -/
def execAndAtHL (s : State) : Res := opLogicHL .and s

/-- XOR (HL) (R158). -/
def execXorAtHL (s : State) : Res := opLogicHL .xor s

/-- OR (HL) (R155). -/
def execOrAtHL (s : State) : Res := opLogicHL .or s

/-- AND n (R153). -/
def execAndImm (n : Byte) (s : State) : Res := opLogicN .and n s

/-- XOR n (R159). -/
def execXorImm (n : Byte) (s : State) : Res := opLogicN .xor n s

/-- OR n (R156). -/
def execOrImm (n : Byte) (s : State) : Res := opLogicN .or n s

/-- INC B (R160). -/
def execIncB (s : State) : Res := opIncR .b s

/-- INC C (R160). -/
def execIncC (s : State) : Res := opIncR .c s

/-- INC D (R160). -/
def execIncD (s : State) : Res := opIncR .d s

/-- INC E (R160). -/
def execIncE (s : State) : Res := opIncR .e s

/-- INC H (R160). -/
def execIncH (s : State) : Res := opIncR .h s

/-- INC L (R160). -/
def execIncL (s : State) : Res := opIncR .l s

/-- INC A (R160). -/
def execIncA (s : State) : Res := opIncR .a s

/-- CPL (R161). -/
def execCpl (s : State) : Res := opCpl s

/-- CCF (R162). -/
def execCcf (s : State) : Res := opCcf s

/-- SCF (R163). -/
def execScf (s : State) : Res := opScf s

/-- NOP (R164). -/
def execNop (s : State) : Res := opNop s

end Sys2Proof.Machine
end

