-- ==== Sys2Proof/Machine/BitTest.lean ====
section
/-! DEFINITION. The extended-space bit test (spec/43_bit.md): the shared operation, then one meaning per row. -/
namespace Sys2Proof.Machine

/-- BIT b,r: Z = (bit = 0), N cleared, H set, C kept; the register is only read (R200). -/
def opBit (b : Fin 8) (r : R8) (s : State) : Res := runHandler 2 (simply (fun t => t.bitFlags (t.bitOf b r)) 8) s

/-- BIT 0,B (R200). -/
def execBit0B (s : State) : Res := opBit 0 .b s

/-- BIT 0,C (R200). -/
def execBit0C (s : State) : Res := opBit 0 .c s

/-- BIT 0,D (R200). -/
def execBit0D (s : State) : Res := opBit 0 .d s

/-- BIT 0,E (R200). -/
def execBit0E (s : State) : Res := opBit 0 .e s

/-- BIT 0,H (R200). -/
def execBit0H (s : State) : Res := opBit 0 .h s

/-- BIT 0,L (R200). -/
def execBit0L (s : State) : Res := opBit 0 .l s

/-- BIT 0,A (R200). -/
def execBit0A (s : State) : Res := opBit 0 .a s

/-- BIT 1,B (R200). -/
def execBit1B (s : State) : Res := opBit 1 .b s

/-- BIT 1,C (R200). -/
def execBit1C (s : State) : Res := opBit 1 .c s

/-- BIT 1,D (R200). -/
def execBit1D (s : State) : Res := opBit 1 .d s

/-- BIT 1,E (R200). -/
def execBit1E (s : State) : Res := opBit 1 .e s

/-- BIT 1,H (R200). -/
def execBit1H (s : State) : Res := opBit 1 .h s

/-- BIT 1,L (R200). -/
def execBit1L (s : State) : Res := opBit 1 .l s

/-- BIT 1,A (R200). -/
def execBit1A (s : State) : Res := opBit 1 .a s

/-- BIT 2,B (R200). -/
def execBit2B (s : State) : Res := opBit 2 .b s

/-- BIT 2,C (R200). -/
def execBit2C (s : State) : Res := opBit 2 .c s

/-- BIT 2,D (R200). -/
def execBit2D (s : State) : Res := opBit 2 .d s

/-- BIT 2,E (R200). -/
def execBit2E (s : State) : Res := opBit 2 .e s

/-- BIT 2,H (R200). -/
def execBit2H (s : State) : Res := opBit 2 .h s

/-- BIT 2,L (R200). -/
def execBit2L (s : State) : Res := opBit 2 .l s

/-- BIT 2,A (R200). -/
def execBit2A (s : State) : Res := opBit 2 .a s

/-- BIT 3,B (R200). -/
def execBit3B (s : State) : Res := opBit 3 .b s

/-- BIT 3,C (R200). -/
def execBit3C (s : State) : Res := opBit 3 .c s

/-- BIT 3,D (R200). -/
def execBit3D (s : State) : Res := opBit 3 .d s

/-- BIT 3,E (R200). -/
def execBit3E (s : State) : Res := opBit 3 .e s

/-- BIT 3,H (R200). -/
def execBit3H (s : State) : Res := opBit 3 .h s

/-- BIT 3,L (R200). -/
def execBit3L (s : State) : Res := opBit 3 .l s

/-- BIT 3,A (R200). -/
def execBit3A (s : State) : Res := opBit 3 .a s

/-- BIT 4,B (R200). -/
def execBit4B (s : State) : Res := opBit 4 .b s

/-- BIT 4,C (R200). -/
def execBit4C (s : State) : Res := opBit 4 .c s

/-- BIT 4,D (R200). -/
def execBit4D (s : State) : Res := opBit 4 .d s

/-- BIT 4,E (R200). -/
def execBit4E (s : State) : Res := opBit 4 .e s

/-- BIT 4,H (R200). -/
def execBit4H (s : State) : Res := opBit 4 .h s

/-- BIT 4,L (R200). -/
def execBit4L (s : State) : Res := opBit 4 .l s

/-- BIT 4,A (R200). -/
def execBit4A (s : State) : Res := opBit 4 .a s

/-- BIT 5,B (R200). -/
def execBit5B (s : State) : Res := opBit 5 .b s

/-- BIT 5,C (R200). -/
def execBit5C (s : State) : Res := opBit 5 .c s

/-- BIT 5,D (R200). -/
def execBit5D (s : State) : Res := opBit 5 .d s

/-- BIT 5,E (R200). -/
def execBit5E (s : State) : Res := opBit 5 .e s

/-- BIT 5,H (R200). -/
def execBit5H (s : State) : Res := opBit 5 .h s

/-- BIT 5,L (R200). -/
def execBit5L (s : State) : Res := opBit 5 .l s

/-- BIT 5,A (R200). -/
def execBit5A (s : State) : Res := opBit 5 .a s

/-- BIT 6,B (R200). -/
def execBit6B (s : State) : Res := opBit 6 .b s

/-- BIT 6,C (R200). -/
def execBit6C (s : State) : Res := opBit 6 .c s

/-- BIT 6,D (R200). -/
def execBit6D (s : State) : Res := opBit 6 .d s

/-- BIT 6,E (R200). -/
def execBit6E (s : State) : Res := opBit 6 .e s

/-- BIT 6,H (R200). -/
def execBit6H (s : State) : Res := opBit 6 .h s

/-- BIT 6,L (R200). -/
def execBit6L (s : State) : Res := opBit 6 .l s

/-- BIT 6,A (R200). -/
def execBit6A (s : State) : Res := opBit 6 .a s

/-- BIT 7,B (R200). -/
def execBit7B (s : State) : Res := opBit 7 .b s

/-- BIT 7,C (R200). -/
def execBit7C (s : State) : Res := opBit 7 .c s

/-- BIT 7,D (R200). -/
def execBit7D (s : State) : Res := opBit 7 .d s

/-- BIT 7,E (R200). -/
def execBit7E (s : State) : Res := opBit 7 .e s

/-- BIT 7,H (R200). -/
def execBit7H (s : State) : Res := opBit 7 .h s

/-- BIT 7,L (R200). -/
def execBit7L (s : State) : Res := opBit 7 .l s

/-- BIT 7,A (R200). -/
def execBit7A (s : State) : Res := opBit 7 .a s

end Sys2Proof.Machine
end

