-- ==== Sys2Proof/Machine/Control.lean ====
section
/-! DEFINITION. The control transfers (spec/42_control.md). -/
namespace Sys2Proof.Machine

/-- JP nn: `pc <- nn` (R180). -/
def opJp (nn : Word) (s : State) : Res := runHandler 3 (simply (fun t => { t with pc := nn }) 16) s

/-- `RelJump(cond)` after its operand fetch: the target is checked, and pc changed, only when the jump is taken (R181). -/
def State.relJump (s : State) (cond : Bool) (e : Int) : Checked State :=
  if cond then do
    let target ← checkAddr ((s.pc.toNat : Int) + e)
    return { s with pc := target }.returnCycles 12
  else return s.returnCycles 8

/-- JR cc,e (R181 to R185). -/
def opJr (cc : Cond) (e : Int) (s : State) : Res := runHandler 2 (fun t => t.relJump (t.holds cc) e) s

/-- CALL's push: sp is checked and decremented by 2, then the word is stored there (R186, R187). -/
def State.push (s : State) (w : Word) : Checked State := do
  let sp ← checkAddr ((s.sp.toNat : Int) - 2)
  let mem ← s.mem.writeWord sp w
  return { s with sp := sp, mem := mem }

/-- CALL nn: push the counter after the operand, then `pc <- target` (R186). -/
def opCall (nn : Word) (s : State) : Res :=
  runHandler 3 (fun t => do
    let u ← t.push t.pc
    return { u with pc := nn }.returnCycles 24) s

/-- JP nn (R180). -/
def execJp (nn : Word) (s : State) : Res := opJp nn s

/-- JR NZ,e (R182). -/
def execJrNZ (e : Int) (s : State) : Res := opJr .nz e s

/-- JR Z,e (R183). -/
def execJrZ (e : Int) (s : State) : Res := opJr .z e s

/-- JR NC,e (R184). -/
def execJrNC (e : Int) (s : State) : Res := opJr .nc e s

/-- JR C,e (R185). -/
def execJrC (e : Int) (s : State) : Res := opJr .c e s

/-- CALL nn (R186). -/
def execCall (nn : Word) (s : State) : Res := opCall nn s

end Sys2Proof.Machine
end

