-- ==== Sys2Proof/Machine/Loads.lean ====
section
/-! DEFINITION. The load instructions (spec/40_loads.md): one shared operation per rule, then one meaning per row. -/
namespace Sys2Proof.Machine

/-- LD r,n: `x[r] <- n` (R120). -/
def opLdRN (r : R8) (n : Byte) (s : State) : Res := runHandler 2 (simply (fun t => t.setR8 r n) 8) s

/-- LD r,r': `x[r] <- x[r']` (R121). -/
def opLdRR (r r' : R8) (s : State) : Res := runHandler 1 (simply (fun t => t.setR8 r (t.r8 r')) 4) s

/-- LD r,(HL): `x[r] <- MemRead(pair(HL), 1)` (R122). -/
def opLdRHL (r : R8) (s : State) : Res := runHandler 1 (simply (fun t => t.setR8 r (t.loadAt .hl)) 8) s

/-- LD (HL),r: `MemWrite(pair(HL), 1, x[r])` (R123). -/
def opLdHLR (r : R8) (s : State) : Res := runHandler 1 (simply (fun t => t.storeAt .hl (t.r8 r)) 8) s

/-- LD A,(BC) and LD A,(DE): `A <- MemRead(pair, 1)` (R124, R125). -/
def opLdAPtr (p : Ptr) (s : State) : Res := runHandler 1 (simply (fun t => t.setR8 .a (t.loadAt p.pair)) 8) s

/-- LD (BC),A and LD (DE),A: `MemWrite(pair, 1, A)` (R126, R127). -/
def opLdPtrA (p : Ptr) (s : State) : Res := runHandler 1 (simply (fun t => t.storeAt p.pair (t.r8 .a)) 8) s

/-- LD rr,nn: `pair(rr) <- nn` (R128). -/
def opLdPairNN (p : PairOp) (nn : Word) (s : State) : Res :=
  runHandler 3 (simply (fun t => t.setPair p.pair nn) 12) s

/-- LD SP,nn: `sp <- nn` (R129). -/
def opLdSPNN (nn : Word) (s : State) : Res := runHandler 3 (simply (fun t => { t with sp := nn }) 12) s

/-- LD SP,HL: `sp <- pair(HL)` (R130). -/
def opLdSPHL (s : State) : Res := runHandler 1 (simply (fun t => { t with sp := t.pair .hl }) 8) s

/-- LD B,n (R120). -/
def execLdBImm (n : Byte) (s : State) : Res := opLdRN .b n s

/-- LD C,n (R120). -/
def execLdCImm (n : Byte) (s : State) : Res := opLdRN .c n s

/-- LD D,n (R120). -/
def execLdDImm (n : Byte) (s : State) : Res := opLdRN .d n s

/-- LD E,n (R120). -/
def execLdEImm (n : Byte) (s : State) : Res := opLdRN .e n s

/-- LD H,n (R120). -/
def execLdHImm (n : Byte) (s : State) : Res := opLdRN .h n s

/-- LD L,n (R120). -/
def execLdLImm (n : Byte) (s : State) : Res := opLdRN .l n s

/-- LD A,n (R120). -/
def execLdAImm (n : Byte) (s : State) : Res := opLdRN .a n s

/-- LD B,B (R121). -/
def execLdBB (s : State) : Res := opLdRR .b .b s

/-- LD B,C (R121). -/
def execLdBC (s : State) : Res := opLdRR .b .c s

/-- LD B,D (R121). -/
def execLdBD (s : State) : Res := opLdRR .b .d s

/-- LD B,E (R121). -/
def execLdBE (s : State) : Res := opLdRR .b .e s

/-- LD B,H (R121). -/
def execLdBH (s : State) : Res := opLdRR .b .h s

/-- LD B,L (R121). -/
def execLdBL (s : State) : Res := opLdRR .b .l s

/-- LD B,A (R121). -/
def execLdBA (s : State) : Res := opLdRR .b .a s

/-- LD C,B (R121). -/
def execLdCB (s : State) : Res := opLdRR .c .b s

/-- LD C,C (R121). -/
def execLdCC (s : State) : Res := opLdRR .c .c s

/-- LD C,D (R121). -/
def execLdCD (s : State) : Res := opLdRR .c .d s

/-- LD C,E (R121). -/
def execLdCE (s : State) : Res := opLdRR .c .e s

/-- LD C,H (R121). -/
def execLdCH (s : State) : Res := opLdRR .c .h s

/-- LD C,L (R121). -/
def execLdCL (s : State) : Res := opLdRR .c .l s

/-- LD C,A (R121). -/
def execLdCA (s : State) : Res := opLdRR .c .a s

/-- LD D,B (R121). -/
def execLdDB (s : State) : Res := opLdRR .d .b s

/-- LD D,C (R121). -/
def execLdDC (s : State) : Res := opLdRR .d .c s

/-- LD D,D (R121). -/
def execLdDD (s : State) : Res := opLdRR .d .d s

/-- LD D,E (R121). -/
def execLdDE (s : State) : Res := opLdRR .d .e s

/-- LD D,H (R121). -/
def execLdDH (s : State) : Res := opLdRR .d .h s

/-- LD D,L (R121). -/
def execLdDL (s : State) : Res := opLdRR .d .l s

/-- LD D,A (R121). -/
def execLdDA (s : State) : Res := opLdRR .d .a s

/-- LD E,B (R121). -/
def execLdEB (s : State) : Res := opLdRR .e .b s

/-- LD E,C (R121). -/
def execLdEC (s : State) : Res := opLdRR .e .c s

/-- LD E,D (R121). -/
def execLdED (s : State) : Res := opLdRR .e .d s

/-- LD E,E (R121). -/
def execLdEE (s : State) : Res := opLdRR .e .e s

/-- LD E,H (R121). -/
def execLdEH (s : State) : Res := opLdRR .e .h s

/-- LD E,L (R121). -/
def execLdEL (s : State) : Res := opLdRR .e .l s

/-- LD E,A (R121). -/
def execLdEA (s : State) : Res := opLdRR .e .a s

/-- LD H,B (R121). -/
def execLdHB (s : State) : Res := opLdRR .h .b s

/-- LD H,C (R121). -/
def execLdHC (s : State) : Res := opLdRR .h .c s

/-- LD H,D (R121). -/
def execLdHD (s : State) : Res := opLdRR .h .d s

/-- LD H,E (R121). -/
def execLdHE (s : State) : Res := opLdRR .h .e s

/-- LD H,H (R121). -/
def execLdHH (s : State) : Res := opLdRR .h .h s

/-- LD H,L (R121). -/
def execLdHL (s : State) : Res := opLdRR .h .l s

/-- LD H,A (R121). -/
def execLdHA (s : State) : Res := opLdRR .h .a s

/-- LD L,B (R121). -/
def execLdLB (s : State) : Res := opLdRR .l .b s

/-- LD L,C (R121). -/
def execLdLC (s : State) : Res := opLdRR .l .c s

/-- LD L,D (R121). -/
def execLdLD (s : State) : Res := opLdRR .l .d s

/-- LD L,E (R121). -/
def execLdLE (s : State) : Res := opLdRR .l .e s

/-- LD L,H (R121). -/
def execLdLH (s : State) : Res := opLdRR .l .h s

/-- LD L,L (R121). -/
def execLdLL (s : State) : Res := opLdRR .l .l s

/-- LD L,A (R121). -/
def execLdLA (s : State) : Res := opLdRR .l .a s

/-- LD A,B (R121). -/
def execLdAB (s : State) : Res := opLdRR .a .b s

/-- LD A,C (R121). -/
def execLdAC (s : State) : Res := opLdRR .a .c s

/-- LD A,D (R121). -/
def execLdAD (s : State) : Res := opLdRR .a .d s

/-- LD A,E (R121). -/
def execLdAE (s : State) : Res := opLdRR .a .e s

/-- LD A,H (R121). -/
def execLdAH (s : State) : Res := opLdRR .a .h s

/-- LD A,L (R121). -/
def execLdAL (s : State) : Res := opLdRR .a .l s

/-- LD A,A (R121). -/
def execLdAA (s : State) : Res := opLdRR .a .a s

/-- LD B,(HL) (R122). -/
def execLdBAtHL (s : State) : Res := opLdRHL .b s

/-- LD C,(HL) (R122). -/
def execLdCAtHL (s : State) : Res := opLdRHL .c s

/-- LD D,(HL) (R122). -/
def execLdDAtHL (s : State) : Res := opLdRHL .d s

/-- LD E,(HL) (R122). -/
def execLdEAtHL (s : State) : Res := opLdRHL .e s

/-- LD H,(HL) (R122). -/
def execLdHAtHL (s : State) : Res := opLdRHL .h s

/-- LD L,(HL) (R122). -/
def execLdLAtHL (s : State) : Res := opLdRHL .l s

/-- LD A,(HL) (R122). -/
def execLdAAtHL (s : State) : Res := opLdRHL .a s

/-- LD (HL),B (R123). -/
def execLdAtHLB (s : State) : Res := opLdHLR .b s

/-- LD (HL),C (R123). -/
def execLdAtHLC (s : State) : Res := opLdHLR .c s

/-- LD (HL),D (R123). -/
def execLdAtHLD (s : State) : Res := opLdHLR .d s

/-- LD (HL),E (R123). -/
def execLdAtHLE (s : State) : Res := opLdHLR .e s

/-- LD (HL),H (R123). -/
def execLdAtHLH (s : State) : Res := opLdHLR .h s

/-- LD (HL),L (R123). -/
def execLdAtHLL (s : State) : Res := opLdHLR .l s

/-- LD (HL),A (R123). -/
def execLdAtHLA (s : State) : Res := opLdHLR .a s

/-- LD A,(BC) (R124). -/
def execLdAAtBC (s : State) : Res := opLdAPtr .bc s

/-- LD A,(DE) (R125). -/
def execLdAAtDE (s : State) : Res := opLdAPtr .de s

/-- LD (BC),A (R126). -/
def execLdAtBCA (s : State) : Res := opLdPtrA .bc s

/-- LD (DE),A (R127). -/
def execLdAtDEA (s : State) : Res := opLdPtrA .de s

/-- LD BC,nn (R128). -/
def execLdBCImm16 (nn : Word) (s : State) : Res := opLdPairNN .bc nn s

/-- LD DE,nn (R128). -/
def execLdDEImm16 (nn : Word) (s : State) : Res := opLdPairNN .de nn s

/-- LD HL,nn (R128). -/
def execLdHLImm16 (nn : Word) (s : State) : Res := opLdPairNN .hl nn s

/-- LD SP,nn (R129). -/
def execLdSPImm16 (nn : Word) (s : State) : Res := opLdSPNN nn s

/-- LD SP,HL (R130). -/
def execLdSPHL (s : State) : Res := opLdSPHL s

end Sys2Proof.Machine
end

