-- ==== Sys2Proof/WellFormed.lean ====
section
/-! DEFINITION. Which instructions an encoding can carry. Every field but JR's displacement is of a type that holds exactly
the encodable values, so the displacement's range (R94, R105) is the one check. -/
namespace Sys2Proof

/-- A JR displacement lies in -128..+127 (R94, R105). -/
def dispInRange (e : Int) : Bool := decide (-128 ≤ e) && decide (e ≤ 127)

/-- The check, form by form. -/
def Form.wf : Form → Bool
  | .jr _ e => dispInRange e
  | .nop | .cpl | .ccf | .scf | .ldSPHL => true
  | .ldRN _ _ | .ldRR _ _ | .ldRHL _ | .ldHLR _ | .ldAPtr _ | .ldPtrA _ | .ldPairNN _ _ | .ldSPNN _ => true
  | .logicR _ _ | .logicHL _ | .logicN _ _ | .incR _ => true
  | .jp _ | .call _ | .bit _ _ => true

/-- A well-formed instruction: one that some bytes encode. -/
def Instr.wf (i : Instr) : Bool := i.form.wf

end Sys2Proof
end

