-- ==== Sys2Proof/Decode.lean ====
section
/-! DEFINITION. The decoder, from the cell-by-cell maps of R99 and R100, and the encoder, from the bit patterns of the
same rules and the field tables of R95 to R98. That the two presentations agree is stated, not assumed. -/
namespace Sys2Proof

/-- An entry of the base table: the handler's instruction, waiting for the operand its format reads (R91, R94). -/
inductive Row where
  /-- Format F1: no operand. -/
  | op (i : Instr)
  /-- Format F2: an immediate byte. -/
  | imm8 (f : Byte → Instr)
  /-- Format F3: a signed displacement byte. -/
  | disp (f : Int → Instr)
  /-- Format F4: an immediate little-endian word. -/
  | imm16 (f : Word → Instr)

/-- Row `0x` of the base map (R99). -/
def baseRow0 : List (Option Row) :=
  [some (.op .nop), some (.imm16 .ldBCImm16), some (.op .ldAtBCA), none,
   some (.op .incB), none, some (.imm8 .ldBImm), none,
   none, none, some (.op .ldAAtBC), none,
   some (.op .incC), none, some (.imm8 .ldCImm), none]

/-- Row `1x` of the base map (R99). -/
def baseRow1 : List (Option Row) :=
  [none, some (.imm16 .ldDEImm16), some (.op .ldAtDEA), none,
   some (.op .incD), none, some (.imm8 .ldDImm), none,
   none, none, some (.op .ldAAtDE), none,
   some (.op .incE), none, some (.imm8 .ldEImm), none]

/-- Row `2x` of the base map (R99). -/
def baseRow2 : List (Option Row) :=
  [some (.disp .jrNZ), some (.imm16 .ldHLImm16), none, none,
   some (.op .incH), none, some (.imm8 .ldHImm), none,
   some (.disp .jrZ), none, none, none,
   some (.op .incL), none, some (.imm8 .ldLImm), some (.op .cpl)]

/-- Row `3x` of the base map (R99). -/
def baseRow3 : List (Option Row) :=
  [some (.disp .jrNC), some (.imm16 .ldSPImm16), none, none,
   none, none, none, some (.op .scf),
   some (.disp .jrC), none, none, none,
   some (.op .incA), none, some (.imm8 .ldAImm), some (.op .ccf)]

/-- Row `4x` of the base map (R99). -/
def baseRow4 : List (Option Row) :=
  [some (.op .ldBB), some (.op .ldBC), some (.op .ldBD), some (.op .ldBE),
   some (.op .ldBH), some (.op .ldBL), some (.op .ldBAtHL), some (.op .ldBA),
   some (.op .ldCB), some (.op .ldCC), some (.op .ldCD), some (.op .ldCE),
   some (.op .ldCH), some (.op .ldCL), some (.op .ldCAtHL), some (.op .ldCA)]

/-- Row `5x` of the base map (R99). -/
def baseRow5 : List (Option Row) :=
  [some (.op .ldDB), some (.op .ldDC), some (.op .ldDD), some (.op .ldDE),
   some (.op .ldDH), some (.op .ldDL), some (.op .ldDAtHL), some (.op .ldDA),
   some (.op .ldEB), some (.op .ldEC), some (.op .ldED), some (.op .ldEE),
   some (.op .ldEH), some (.op .ldEL), some (.op .ldEAtHL), some (.op .ldEA)]

/-- Row `6x` of the base map (R99). -/
def baseRow6 : List (Option Row) :=
  [some (.op .ldHB), some (.op .ldHC), some (.op .ldHD), some (.op .ldHE),
   some (.op .ldHH), some (.op .ldHL), some (.op .ldHAtHL), some (.op .ldHA),
   some (.op .ldLB), some (.op .ldLC), some (.op .ldLD), some (.op .ldLE),
   some (.op .ldLH), some (.op .ldLL), some (.op .ldLAtHL), some (.op .ldLA)]

/-- Row `7x` of the base map (R99). -/
def baseRow7 : List (Option Row) :=
  [some (.op .ldAtHLB), some (.op .ldAtHLC), some (.op .ldAtHLD), some (.op .ldAtHLE),
   some (.op .ldAtHLH), some (.op .ldAtHLL), none, some (.op .ldAtHLA),
   some (.op .ldAB), some (.op .ldAC), some (.op .ldAD), some (.op .ldAE),
   some (.op .ldAH), some (.op .ldAL), some (.op .ldAAtHL), some (.op .ldAA)]

/-- Row `Ax` of the base map (R99). -/
def baseRowA : List (Option Row) :=
  [some (.op .andB), some (.op .andC), some (.op .andD), some (.op .andE),
   some (.op .andH), some (.op .andL), some (.op .andAtHL), some (.op .andA),
   some (.op .xorB), some (.op .xorC), some (.op .xorD), some (.op .xorE),
   some (.op .xorH), some (.op .xorL), some (.op .xorAtHL), some (.op .xorA)]

/-- Row `Bx` of the base map (R99). -/
def baseRowB : List (Option Row) :=
  [some (.op .orB), some (.op .orC), some (.op .orD), some (.op .orE),
   some (.op .orH), some (.op .orL), some (.op .orAtHL), some (.op .orA),
   none, none, none, none,
   none, none, none, none]

/-- Row `Cx` of the base map (R99). -/
def baseRowC : List (Option Row) :=
  [none, none, none, some (.imm16 .jp),
   none, none, none, none,
   none, none, none, none,
   none, some (.imm16 .call), none, none]

/-- Row `Ex` of the base map (R99). -/
def baseRowE : List (Option Row) :=
  [none, none, none, none,
   none, none, some (.imm8 .andImm), none,
   none, none, none, none,
   none, none, some (.imm8 .xorImm), none]

/-- Row `Fx` of the base map (R99). -/
def baseRowF : List (Option Row) :=
  [none, none, none, none,
   none, none, some (.imm8 .orImm), none,
   none, some (.op .ldSPHL), none, none,
   none, none, none, none]

/-- The base map (R99), row by row; an empty row has no handler in any column. -/
def baseMap : List (List (Option Row)) :=
  [baseRow0, baseRow1, baseRow2, baseRow3, baseRow4, baseRow5, baseRow6, baseRow7,
   [], [], baseRowA, baseRowB, baseRowC, [], baseRowE, baseRowF]

/-- Row `4x` of the extended map (R100). -/
def extendedRow4 : List (Option Instr) :=
  [some .bit0B, some .bit0C, some .bit0D, some .bit0E,
   some .bit0H, some .bit0L, none, some .bit0A,
   some .bit1B, some .bit1C, some .bit1D, some .bit1E,
   some .bit1H, some .bit1L, none, some .bit1A]

/-- Row `5x` of the extended map (R100). -/
def extendedRow5 : List (Option Instr) :=
  [some .bit2B, some .bit2C, some .bit2D, some .bit2E,
   some .bit2H, some .bit2L, none, some .bit2A,
   some .bit3B, some .bit3C, some .bit3D, some .bit3E,
   some .bit3H, some .bit3L, none, some .bit3A]

/-- Row `6x` of the extended map (R100). -/
def extendedRow6 : List (Option Instr) :=
  [some .bit4B, some .bit4C, some .bit4D, some .bit4E,
   some .bit4H, some .bit4L, none, some .bit4A,
   some .bit5B, some .bit5C, some .bit5D, some .bit5E,
   some .bit5H, some .bit5L, none, some .bit5A]

/-- Row `7x` of the extended map (R100). -/
def extendedRow7 : List (Option Instr) :=
  [some .bit6B, some .bit6C, some .bit6D, some .bit6E,
   some .bit6H, some .bit6L, none, some .bit6A,
   some .bit7B, some .bit7C, some .bit7D, some .bit7E,
   some .bit7H, some .bit7L, none, some .bit7A]

/-- The extended map (R100), row by row. -/
def extendedMap : List (List (Option Instr)) :=
  [[], [], [], [], extendedRow4, extendedRow5, extendedRow6, extendedRow7]

/-- The cell of a map at row = high nibble, column = low nibble; an absent cell holds nothing. -/
def cell {α : Type} (map : List (List (Option α))) (b : Byte) : Option α :=
  (map.getD (b.toNat / 16) []).getD (b.toNat % 16) none

/-- BaseTable: the handler of a first byte, if it has one (R92, R99). -/
def baseTable (b1 : Byte) : Option Row := cell baseMap b1

/-- ExtendedTable: the handler of the byte after ESCAPE, if it has one (R92, R100). -/
def extendedTable (b2 : Byte) : Option Instr := cell extendedMap b2

/-- Why bytes decode to no instruction. -/
inductive Reject where
  /-- The first byte is not ESCAPE and has no base handler (R101). -/
  | noBaseHandler (b1 : Byte)
  /-- ESCAPE, then a byte without an extended handler (R101). -/
  | noExtendedHandler (b2 : Byte)
  /-- The bytes end before the instruction does. -/
  | truncated
  deriving DecidableEq, Repr

/-- The instruction a table entry gives with its operand bytes, and the bytes after it (R94). -/
def Row.complete : Row → List Byte → Except Reject (Instr × List Byte)
  | .op i, rest => .ok (i, rest)
  | .imm8 f, n :: rest => .ok (f n, rest)
  | .disp f, e :: rest => .ok (f (sext16 e), rest)
  | .imm16 f, lo :: hi :: rest => .ok (f (joinBytes hi lo), rest)
  | .imm8 _, [] => .error .truncated
  | .disp _, [] => .error .truncated
  | .imm16 _, [] => .error .truncated
  | .imm16 _, [_] => .error .truncated

/-- The decode algorithm on a list of bytes: the instruction it begins with and the bytes after it (R92). -/
def decode : List Byte → Except Reject (Instr × List Byte)
  | [] => .error .truncated
  | b1 :: rest =>
    if b1 = Config.escape then
      match rest with
      | [] => .error .truncated
      | b2 :: rest' =>
        match extendedTable b2 with
        | none => .error (.noExtendedHandler b2)
        | some i => .ok (i, rest')
    else
      match baseTable b1 with
      | none => .error (.noBaseHandler b1)
      | some row => row.complete rest

/-- The opcode field of a logic operation: bits 7:3 of its register form (R99). -/
def LogicOp.rowCode : LogicOp → BitVec 5
  | .and => 0b10100 | .or => 0b10110 | .xor => 0b10101

/-- The opcode of a logic operation's immediate form (R99). -/
def LogicOp.immCode : LogicOp → Byte
  | .and => 0b11100110 | .or => 0b11110110 | .xor => 0b11101110

/-- The bytes of a form, from the bit patterns of R99 and R100 (formats of R91). -/
def Form.encode : Form → List Byte
  | .nop => [0b00000000]
  | .ldPairNN p nn => [0b00#2 ++ p.code ++ 0b0001#4, loByte nn, hiByte nn]
  | .ldSPNN nn => [0b00110001, loByte nn, hiByte nn]
  | .ldPtrA p => [0b000#3 ++ p.code ++ 0b0010#4]
  | .ldAPtr p => [0b000#3 ++ p.code ++ 0b1010#4]
  | .incR r => [0b00#2 ++ r.code ++ 0b100#3]
  | .ldRN r n => [0b00#2 ++ r.code ++ 0b110#3, n]
  | .jr cc e => [0b001#3 ++ cc.code ++ 0b000#3, dispByte e]
  | .cpl => [0b00101111]
  | .scf => [0b00110111]
  | .ccf => [0b00111111]
  | .ldRR r r' => [0b01#2 ++ r.code ++ r'.code]
  | .ldRHL r => [0b01#2 ++ r.code ++ 0b110#3]
  | .ldHLR r => [0b01110#5 ++ r.code]
  | .logicR op r => [op.rowCode ++ r.code]
  | .logicHL op => [op.rowCode ++ 0b110#3]
  | .logicN op n => [op.immCode, n]
  | .jp nn => [0b11000011, loByte nn, hiByte nn]
  | .call nn => [0b11001101, loByte nn, hiByte nn]
  | .ldSPHL => [0b11111001]
  | .bit b r => [Config.escape, 0b01#2 ++ BitVec.ofNat 3 b.val ++ r.code]

/-- The bytes of an instruction. -/
def encode (i : Instr) : List Byte := i.form.encode

/-- The bytes of an opcode-table word, in the order they stand in memory, filled up with zeros to three, the longest
instruction. The table's 16-bit `match` values have the FIRST byte in bits 15..8 (R107), so a word whose high byte is
ESCAPE is laid out high byte first; every other word is laid out low byte first (log 10). -/
def wordBytes (nbits w : Nat) : List Byte :=
  let v := w % 2 ^ nbits
  let b0 := BitVec.ofNat 8 v
  let b1 := BitVec.ofNat 8 (v / 256)
  let b2 := BitVec.ofNat 8 (v / 65536)
  if nbits = 16 ∧ b1 = Config.escape then [b1, b0, b2] else [b0, b1, b2]

/-- The instruction the decoder reads from an opcode-table word. -/
def decodeTableWord (nbits w : Nat) : Option Instr :=
  match decode (wordBytes nbits w) with
  | .ok (i, _) => some i
  | .error _ => none

end Sys2Proof
end

