-- ==== Sys2Proof/Machine/Fetch.lean ====
section
/-! DEFINITION. Fetch and table lookup: the part of `step()` before the handler (R92, R242), in the spec's order of checks
(R216). -/
namespace Sys2Proof.Machine

/-- What the fetch at pc finds. -/
inductive Fetched where
  /-- A handler, with its operands. -/
  | instr (i : Instr)
  /-- Bytes without a handler, and the state with pc advanced past them (R211). -/
  | undefined (bytes : List Byte) (after : State)
  /-- A fetch raised OutOfRangeAddress (R15, R213). -/
  | fault (e : Fault)
  deriving DecidableEq, Repr

/-- The handler's operand fetches, by the entry's format (R91, R94). -/
def fetchOperands (row : Row) (s : State) : Checked Instr :=
  match row with
  | .op i => .ok i
  | .imm8 f => do
    let (n, _) ← s.fetch8
    return f n
  | .disp f => do
    let (e, _) ← s.fetch8
    return f (sext16 e)
  | .imm16 f => do
    let (nn, _) ← s.fetch16
    return f nn

/-- The decode algorithm at pc (R92, R242). -/
def fetchInstr (s : State) : Fetched :=
  match s.fetch8 with
  | .error e => .fault e
  | .ok (b1, s1) =>
    if b1 = Config.escape then
      match s1.fetch8 with
      | .error e => .fault e
      | .ok (b2, s2) =>
        match extendedTable b2 with
        | none => .undefined [b1, b2] s2
        | some i => .instr i
    else
      match baseTable b1 with
      | none => .undefined [b1] s1
      | some row =>
        match fetchOperands row s1 with
        | .error e => .fault e
        | .ok i => .instr i

/-- The bytes at pc that a fetch can see: up to three, fewer at the top of memory. -/
def State.window (s : State) : List Byte := s.mem.bytesFrom s.pc.toNat 3

/-- Store bytes at pc and after it, leaving out what would lie past 0xFFFF (log 11). -/
def State.placeAtPc (s : State) (bytes : List Byte) : State :=
  { s with mem := s.mem.setBytes s.pc.toNat (bytes.take (Config.memSize - s.pc.toNat)) }

end Sys2Proof.Machine
end

