-- ==== Sys2Proof/Machine/Step.lean ====
section
/-! DEFINITION. One call of `step()` (R242). -/
namespace Sys2Proof.Machine

/-- Fetch and look up, then the handler, or the UndefinedOpcode outcome, or the fault (R16, R210, R242). -/
def step (s : State) : Host.Outcome State Fault Refusal :=
  match fetchInstr s with
  | .instr i => exec i s
  | .undefined bytes after => .next (after.returnUndefined bytes s.pc)
  | .fault e => .fault e

/-- The state with an opcode-table word placed where the next step fetches (log 10, log 11). -/
def State.withFetchWord (s : State) (nbits w : Nat) : State := s.placeAtPc (wordBytes nbits w)

end Sys2Proof.Machine
end

