-- ==== Sys2Proof/Machine/HostOps.lean ====
section
/-! DEFINITION. What the host may do between steps (R36, R80, R240, R241, R247). Registers, pairs and the byte accessors
are the operations of Ops.lean and Memory.lean themselves; the others stand here. None of them writes `returned`, but
`init()` clears it with the registers (log 2). -/
namespace Sys2Proof.Machine

/-- Construction with a given RESET_PC (R10, R240). -/
def construct (resetPc : Word) : State := State.powerOn resetPc

/-- `init()` with a given RESET_PC: every register at power-on, memory kept (R241). -/
def initWith (resetPc : Word) (s : State) : State := { State.powerOn resetPc with mem := s.mem }

/-- `init()` at the spec's RESET_PC (R241). -/
def init (s : State) : State := initWith Config.resetPc s

/-- The flag at a bit position of F; bits 7, 6, 5, 4 only, anything else is refused (R27, R36, D17; log 13). -/
def flagOfBit (bit : Nat) : Except Refusal Flag :=
  if bit = 7 then .ok .z
  else if bit = 6 then .ok .n
  else if bit = 5 then .ok .h
  else if bit = 4 then .ok .c
  else .error (.notAFlag bit)

/-- `getFlag(bit)` (R36). -/
def getFlagBit (bit : Nat) (s : State) : Except Refusal Bool := do
  let f ← flagOfBit bit
  return s.flag f

/-- `setFlag(bit, b)` (R36). -/
def setFlagBit (bit : Nat) (b : Bool) (s : State) : Res :=
  match flagOfBit bit with
  | .ok f => .next (s.setFlag f b)
  | .error r => .refused r

/-- The machine with its memory replaced by what a memory operation gives, or that operation's fault. -/
def withMemory (s : State) (m : Checked Memory) : Res :=
  match m with
  | .ok m' => .next { s with mem := m' }
  | .error e => .fault e

/-- The host's `write8` (R80). -/
def hostWrite8 (addr : Word) (v : Byte) (s : State) : Res := withMemory s (.ok (s.mem.write8 addr v))

/-- The host's `readWord` (R80). -/
def hostReadWord (addr : Word) (s : State) : Checked Word := s.mem.readWord addr

/-- The host's `writeWord` (R80). -/
def hostWriteWord (addr w : Word) (s : State) : Res := withMemory s (s.mem.writeWord addr w)

/-- The loader's `loadBlock` (R66, R245). -/
def hostLoadBlock (addr : Word) (bytes : List Byte) (s : State) : Res := withMemory s (s.mem.loadBlock addr bytes)

end Sys2Proof.Machine
end

