-- ==== Sys2Proof/Machine/Driver.lean ====
section
/-! DEFINITION. The driver of R227: it calls `step()` until UndefinedOpcode, a fault, or its budget. -/
namespace Sys2Proof.Machine

/-- How a run ends (R227). `spent` is the sum of the cycle counts returned. -/
inductive RunEnd where
  /-- The normal end: the first UndefinedOpcode, with what it records and the state it leaves. -/
  | undefinedOpcode (bytes : List Byte) (start : Word) (s : State) (spent : Nat)
  /-- The first OutOfRangeAddress; no state is claimed after it (R214). -/
  | fault (e : Fault)
  /-- A refusal, which no step of this model gives. -/
  | refused (r : Refusal)
  /-- The step or cycle budget ran out: it says nothing of what comes next (R228). -/
  | budget (s : State) (spent : Nat)
  deriving DecidableEq, Repr

/-- Run with a step budget and, if given, a cycle budget, looked at before each step (R227, R243; log 12). -/
def drive (limit : Option Nat) : Nat → Nat → State → RunEnd
  | 0, spent, s => .budget s spent
  | steps + 1, spent, s =>
    if limit.any (fun n => decide (n ≤ spent)) then .budget s spent
    else
      match step s with
      | .fault e => .fault e
      | .refused r => .refused r
      | .next t =>
        match t.returned with
        | some (.undefinedOpcode bytes start) => .undefinedOpcode bytes start t spent
        | some (.cycles n) => drive limit steps (spent + n) t
        | none => drive limit steps spent t

end Sys2Proof.Machine
end

