-- ==== Sys2Proof/Safety.lean ====
section
/-! DEFINITION. What claims are stated in: the invariant, the spec's tables of writers, readers, flag effects and cycle
counts (R24, R31, R32, R250), and short names for the states and ranges the rules speak of. -/
namespace Sys2Proof.Machine

/-- An instruction of `len` bytes at pc fits: not "start + length > 0xFFFF" (R213). -/
abbrev State.fits (s : State) (len : Nat) : Prop := s.pc.toNat + len ≤ 0xFFFF

/-- The state with pc past `len` bytes and `Cycles(n)` returned. -/
def State.after (s : State) (len n : Nat) : State :=
  { s with pc := s.pc + BitVec.ofNat 16 len, returned := some (.cycles n) }

/-- The end-of-memory fault of the instruction files (R213). -/
def endOfMemory : Res := .fault (.outOfRangeAddress 0x10000)

/-- The target of a relative jump that starts at pc (R181). -/
def State.jrTarget (s : State) (e : Int) : Int := (s.pc.toNat : Int) + 2 + e

/-- What a step or an instruction answers, with a function applied to its next state. -/
def mapNext (g : State → State) : Res → Res
  | .next s => .next (g s)
  | .fault e => .fault e
  | .refused r => .refused r

/-- The state with bits 3..0 of F taken from another byte (R29). -/
def State.withLowF (x : Byte) (s : State) : State := { s with f := (s.f &&& 0xF0) ||| (x &&& 0x0F) }

/-- The state with F cleared: what is left to compare when F is left out. -/
def State.withoutF (s : State) : State := { s with f := 0 }

/-- A value that a step may return: one of the five counts (R16, R243), or the bytes the decoder finds no handler for
(R211). -/
def Returned.legal : Returned → Bool
  | .cycles n => [4, 8, 12, 16, 24].contains n
  | .undefinedOpcode bytes _ =>
    match bytes with
    | [b1] => b1 != Config.escape && (baseTable b1).isNone
    | [b1, b2] => b1 == Config.escape && (extendedTable b2).isNone
    | _ => false

/-- `CycleRun s counts u`: steps from `s`, each returning `Cycles(n)` for the `n` in turn of `counts`, lead to `u`
(R227, R243). -/
inductive CycleRun : State → List Nat → State → Prop where
  | here (s : State) : CycleRun s [] s
  | step {s t u : State} {n : Nat} {counts : List Nat} (hs : step s = .next t) (hn : t.returned = some (.cycles n))
      (rest : CycleRun t counts u) : CycleRun s (n :: counts) u

/-- The invariant: memory keeps its canonical form, and what was returned last is a legal value. -/
def State.Inv (s : State) : Prop := s.mem.wf = true ∧ s.returned.all Returned.legal = true

end Sys2Proof.Machine

namespace Sys2Proof

/-- The 8-bit registers a form writes, F left out (R24). -/
def Form.writes : Form → List Reg
  | .ldRN r _ | .ldRR r _ | .ldRHL r | .incR r => [r.reg]
  | .ldPairNN p _ => [p.pair.hi, p.pair.lo]
  | .ldAPtr _ | .logicR _ _ | .logicHL _ | .logicN _ _ | .cpl => [.a]
  | .ldHLR _ | .ldPtrA _ | .ldSPNN _ | .ldSPHL | .ccf | .scf | .nop | .jp _ | .jr _ _ | .call _ | .bit _ _ => []

/-- Whether a form writes sp (R24, R26). -/
def Form.writesSp : Form → Bool
  | .ldSPNN _ | .ldSPHL | .call _ => true
  | .ldRN _ _ | .ldRR _ _ | .ldRHL _ | .ldHLR _ | .ldAPtr _ | .ldPtrA _ | .ldPairNN _ _ => false
  | .logicR _ _ | .logicHL _ | .logicN _ _ | .incR _ | .cpl | .ccf | .scf | .nop => false
  | .jp _ | .jr _ _ | .bit _ _ => false

/-- Whether a form may set pc to anything but the address after it (R25). -/
def Form.transfers : Form → Bool
  | .jp _ | .jr _ _ | .call _ => true
  | .ldRN _ _ | .ldRR _ _ | .ldRHL _ | .ldHLR _ | .ldAPtr _ | .ldPtrA _ | .ldPairNN _ _ | .ldSPNN _ | .ldSPHL => false
  | .logicR _ _ | .logicHL _ | .logicN _ _ | .incR _ | .cpl | .ccf | .scf | .nop | .bit _ _ => false

/-- The first address and the number of bytes a form stores, if it stores (R70). -/
def Form.store (s : Machine.State) : Form → Option (Nat × Nat)
  | .ldHLR _ => some ((s.pair .hl).toNat, 1)
  | .ldPtrA p => some ((s.pair p.pair).toNat, 1)
  | .call _ => some (s.sp.toNat - 2, 2)
  | .ldRN _ _ | .ldRR _ _ | .ldRHL _ | .ldAPtr _ | .ldPairNN _ _ | .ldSPNN _ | .ldSPHL => none
  | .logicR _ _ | .logicHL _ | .logicN _ _ | .incR _ | .cpl | .ccf | .scf | .nop => none
  | .jp _ | .jr _ _ | .bit _ _ => none

/-- The marks of R31's table: `*`, `0`, `1`, `-`, `!`. -/
inductive FlagEffect where
  | computed | cleared | set | kept | inverted
  deriving DecidableEq, Repr

/-- R31's table, the effects on Z, N, H and C in turn. -/
def Form.flagEffects : Form → FlagEffect × FlagEffect × FlagEffect × FlagEffect
  | .logicR .and _ | .logicHL .and | .logicN .and _ => (.computed, .cleared, .set, .cleared)
  | .logicR .or _ | .logicHL .or | .logicN .or _ => (.computed, .cleared, .cleared, .cleared)
  | .logicR .xor _ | .logicHL .xor | .logicN .xor _ => (.computed, .cleared, .cleared, .cleared)
  | .incR _ => (.computed, .cleared, .computed, .kept)
  | .cpl => (.kept, .set, .set, .kept)
  | .ccf => (.kept, .cleared, .cleared, .inverted)
  | .scf => (.kept, .cleared, .cleared, .set)
  | .bit _ _ => (.computed, .cleared, .set, .kept)
  | .ldRN _ _ | .ldRR _ _ | .ldRHL _ | .ldHLR _ | .ldAPtr _ | .ldPtrA _ => (.kept, .kept, .kept, .kept)
  | .ldPairNN _ _ | .ldSPNN _ | .ldSPHL | .nop | .jp _ | .jr _ _ | .call _ => (.kept, .kept, .kept, .kept)

/-- The mark of one flag in R31's table. -/
def Form.flagEffect (f : Form) : Flag → FlagEffect
  | .z => f.flagEffects.1
  | .n => f.flagEffects.2.1
  | .h => f.flagEffects.2.2.1
  | .c => f.flagEffects.2.2.2

/-- What a mark says of a flag before and after; `computed` leaves it to the instruction's own rule. -/
def FlagEffect.says : FlagEffect → Bool → Bool → Prop
  | .computed, _, _ => True
  | .cleared, _, new => new = false
  | .set, _, new => new = true
  | .kept, old, new => new = old
  | .inverted, old, new => new = !old

/-- The flag a form reads, if it reads one (R32). -/
def Form.readsFlag : Form → Option Flag
  | .jr .nz _ | .jr .z _ => some .z
  | .jr .nc _ | .jr .c _ => some .c
  | .ccf => some .c
  | .ldRN _ _ | .ldRR _ _ | .ldRHL _ | .ldHLR _ | .ldAPtr _ | .ldPtrA _ | .ldPairNN _ _ | .ldSPNN _ | .ldSPHL => none
  | .logicR _ _ | .logicHL _ | .logicN _ _ | .incR _ | .cpl | .scf | .nop | .jp _ | .call _ | .bit _ _ => none

/-- R250's table; a JR's count depends on whether it is taken, on the flags before the step. -/
def Form.cycles (s : Machine.State) : Form → Nat
  | .ldRR _ _ | .logicR _ _ | .incR _ | .cpl | .ccf | .scf | .nop => 4
  | .ldRN _ _ | .ldRHL _ | .ldHLR _ | .ldAPtr _ | .ldPtrA _ | .ldSPHL | .logicN _ _ | .logicHL _ | .bit _ _ => 8
  | .ldPairNN _ _ | .ldSPNN _ => 12
  | .jr cc _ => if s.holds cc then 12 else 8
  | .jp _ => 16
  | .call _ => 24

end Sys2Proof
end

