-- ==== Sys2Proof/Certificates/Slice0/Obligations.lean ====
section
/-! DEFINITION. The statements for the provers. Each formalises the rules of spec/ its entry in OBLIGATIONS.json cites. -/

open Sys2Proof Sys2Proof.Machine

/-- All 179 instructions: the cell maps of R99 and R100 and their bit patterns say the same. -/
def Obligations.DecodeEncodeAgree : Prop :=
  ∀ (i : Instr) (rest : List Byte), i.wf = true → decode (encode i ++ rest) = .ok (i, rest)

/-- The other direction: decoding is unambiguous and yields well-formed instructions only. -/
def Obligations.EncodeDecodeAgree : Prop :=
  ∀ (bytes : List Byte) (i : Instr) (rest : List Byte),
    decode bytes = .ok (i, rest) → i.wf = true ∧ bytes = encode i ++ rest

/-- The counts of R101. -/
def Obligations.HandlerTableCounts : Prop :=
  ((List.range 256).filter fun n => (baseTable (BitVec.ofNat 8 n)).isSome).length = 123 ∧
  (baseTable 0xCB).isNone = true ∧
  ((List.range 256).filter fun n => (extendedTable (BitVec.ofNat 8 n)).isSome).length = 56

/-- Each word is the encoding line of its rule (R120 to R130, R151 to R164, R180 to R186, R200). -/
def Obligations.WordsFromTheEncodingTablesDecode : Prop :=
  decode [0b00000000] = .ok (.nop, []) ∧
  decode [0b00000110, 0x12] = .ok (.ldBImm 0x12, []) ∧
  decode [0b01111000] = .ok (.ldAB, []) ∧
  decode [0b01100110] = .ok (.ldHAtHL, []) ∧
  decode [0b01110101] = .ok (.ldAtHLL, []) ∧
  decode [0b00001010] = .ok (.ldAAtBC, []) ∧
  decode [0b00010010] = .ok (.ldAtDEA, []) ∧
  decode [0b00010001, 0x34, 0x12] = .ok (.ldDEImm16 0x1234, []) ∧
  decode [0b00110001, 0x00, 0xD0] = .ok (.ldSPImm16 0xD000, []) ∧
  decode [0b11111001] = .ok (.ldSPHL, []) ∧
  decode [0b10100000] = .ok (.andB, []) ∧
  decode [0b10110110] = .ok (.orAtHL, []) ∧
  decode [0b11101110, 0xFF] = .ok (.xorImm 0xFF, []) ∧
  decode [0b00101100] = .ok (.incL, []) ∧
  decode [0b00101111] = .ok (.cpl, []) ∧
  decode [0b00111111] = .ok (.ccf, []) ∧
  decode [0b00110111] = .ok (.scf, []) ∧
  decode [0b11000011, 0x34, 0x12] = .ok (.jp 0x1234, []) ∧
  decode [0b00100000, 0xFE] = .ok (.jrNZ (-2), []) ∧
  decode [0b11001101, 0x00, 0x02] = .ok (.call 0x0200, []) ∧
  decode [0b11001011, 0b01111111] = .ok (.bit7A, [])

/-- R103: one escape byte, which does not nest. -/
def Obligations.EscapeSelectsTheExtendedTable : Prop :=
  baseTable 0xCB = none ∧
  (∀ (b2 : Byte) (rest : List Byte) (i : Instr),
    extendedTable b2 = some i → decode (0xCB :: b2 :: rest) = .ok (i, rest)) ∧
  (∀ (b2 : Byte) (rest : List Byte),
    extendedTable b2 = none → decode (0xCB :: b2 :: rest) = .error (.noExtendedHandler b2)) ∧
  decode [0xCB, 0xCB] = .error (.noExtendedHandler 0xCB)

/-- R90: the length follows from the opcode. -/
def Obligations.InstructionLengths : Prop :=
  (∀ i : Instr, (encode i).length = i.form.length ∧ 1 ≤ i.form.length ∧ i.form.length ≤ 3 ∧
    ((encode i).head? = some Config.escape → i.form.length = 2)) ∧
  ∀ i j : Instr, (encode i).head? = (encode j).head? → i.form.length = j.form.length

/-- R92 and R242: fetch, lookup, handler. -/
def Obligations.StepRunsDecodedInstruction : Prop :=
  ∀ (s : State) (i : Instr) (rest : List Byte), decode s.window = .ok (i, rest) → step s = exec i s

/-- R211, with the model's field `returned` (log 2) as the place where the outcome is recorded. -/
def Obligations.UndefinedOpcodeOutcome : Prop :=
  (∀ (s : State) (b1 : Byte), s.fits 1 → s.mem.read8 s.pc = b1 → b1 ≠ Config.escape → baseTable b1 = none →
    step s = .next { s with pc := s.pc + 1, returned := some (.undefinedOpcode [b1] s.pc) }) ∧
  (∀ (s : State) (b2 : Byte), s.fits 2 → s.mem.read8 s.pc = Config.escape → s.mem.read8 (s.pc + 1) = b2 →
    extendedTable b2 = none →
    step s = .next { s with pc := s.pc + 2, returned := some (.undefinedOpcode [Config.escape, b2] s.pc) }) ∧
  ∀ (i : Instr) (s t : State) (bytes : List Byte) (start : Word),
    exec i s = .next t → t.returned ≠ some (.undefinedOpcode bytes start)

/-- R213 rows 1 to 4 and R216 items 1, 2, 4. -/
def Obligations.FetchAtTopOfMemoryFaults : Prop :=
  (∀ s : State, s.pc = 0xFFFF → step s = endOfMemory) ∧
  (∀ s : State, s.pc = 0xFFFE → s.mem.read8 s.pc = Config.escape → step s = endOfMemory) ∧
  ∀ s : State, decode s.window = .error .truncated → step s = endOfMemory

/-- The instruction rows of R213. -/
def Obligations.InstructionFaultsExactlyAsTabled : Prop :=
  ∀ (i : Instr) (s : State) (a : Int), exec i s = .fault (.outOfRangeAddress a) ↔
    (¬s.fits i.form.length ∧ a = 0x10000) ∨
    (s.fits i.form.length ∧
      ((∃ cc e, i.form = .jr cc e ∧ s.holds cc = true ∧ (s.jrTarget e < 0 ∨ 0xFFFF < s.jrTarget e) ∧
          a = s.jrTarget e) ∨
        ∃ nn, i.form = .call nn ∧ s.sp.toNat < 2 ∧ a = (s.sp.toNat : Int) - 2))

/-- R212: the recorded integer is the offending address. -/
def Obligations.StepFaultsRecordOutOfRangeIntegers : Prop :=
  ∀ (s : State) (e : Fault), step s = .fault e → ∃ a : Int, e = .outOfRangeAddress a ∧ (a < 0 ∨ 0xFFFF < a)

/-- R16 (and R210). -/
def Obligations.StepOutcomes : Prop :=
  (∀ (i : Instr) (s t : State), exec i s = .next t → ∃ n ∈ [4, 8, 12, 16, 24], t.returned = some (.cycles n)) ∧
  ∀ s : State,
    (∃ t, ∃ n ∈ [4, 8, 12, 16, 24], step s = .next t ∧ t.returned = some (.cycles n)) ∨
    (∃ t bytes start, step s = .next t ∧ t.returned = some (.undefinedOpcode bytes start)) ∨
    ∃ a, step s = .fault (.outOfRangeAddress a)

/-- R220: every instruction may be executed at any time; R213 says where one faults. -/
def Obligations.EveryInstructionCompletes : Prop :=
  ∀ (i : Instr) (s : State), s.fits i.form.length →
    (∀ cc e, i.form = .jr cc e → s.holds cc = true → 0 ≤ s.jrTarget e ∧ s.jrTarget e ≤ 0xFFFF) →
    (∀ nn, i.form = .call nn → 2 ≤ s.sp.toNat) → ∃ t, exec i s = .next t

/-- The start of the invariant below. The canonical form and `returned` are the model's (log 7, log 2). -/
def Obligations.InvariantHoldsAtReset : Prop :=
  State.reset.Inv

/-- The form of memory is the model's (log 7); legal values are those of R16 and R211. -/
def Obligations.StepKeepsInvariant : Prop :=
  ∀ s t : State, s.Inv → step s = .next t → t.Inv

/-- R29. -/
def Obligations.LowFlagBitsKeptAndInert : Prop :=
  (∀ s t : State, step s = .next t → t.f &&& 0x0F = s.f &&& 0x0F) ∧
  (∀ (x : Byte) (s : State), step (s.withLowF x) = mapNext (State.withLowF x) (step s)) ∧
  (∀ (s : State) (v : Byte), (s.setReg .f v).f = v) ∧
  (∀ (s : State) (w : Word), (s.setPair .af w).f = loByte w) ∧
  ∀ (s : State) (g : Flag) (b : Bool), (s.setFlag g b).f &&& 0x0F = s.f &&& 0x0F

/-- R243: no state depends on the count and no later step reads it. -/
def Obligations.ReturnedValueIsNeverRead : Prop :=
  ∀ (s : State) (r : Option Returned), step { s with returned := r } = step s

/-- R250, all 179 instructions. -/
def Obligations.CycleCountTable : Prop :=
  ∀ (i : Instr) (s t : State), exec i s = .next t →
    t.returned = some (.cycles (i.form.cycles s)) ∧ 0 < i.form.cycles s ∧ i.form.cycles s % 4 = 0

/-- R25, for every form but the control transfers. -/
def Obligations.OnlyTransfersRedirectPc : Prop :=
  ∀ (i : Instr) (s t : State), i.form.transfers = false → exec i s = .next t →
    t.pc.toNat = s.pc.toNat + i.form.length

/-- R24's table as a frame; R131 and R187 are cases of it. -/
def Obligations.RegisterWriters : Prop :=
  ∀ (i : Instr) (s t : State), exec i s = .next t →
    (∀ q : Reg, q ≠ .f → q ∉ i.form.writes → t.reg q = s.reg q) ∧
    (i.form.writesSp = false → t.sp = s.sp) ∧
    (i.form.flagEffects = (.kept, .kept, .kept, .kept) → t.f = s.f)

/-- R31's table, all 179 instructions. -/
def Obligations.FlagEffectTable : Prop :=
  ∀ (i : Instr) (s t : State), exec i s = .next t →
    i.form.flagEffects.1.says (s.flag .z) (t.flag .z) ∧
    i.form.flagEffects.2.1.says (s.flag .n) (t.flag .n) ∧
    i.form.flagEffects.2.2.1.says (s.flag .h) (t.flag .h) ∧
    i.form.flagEffects.2.2.2.says (s.flag .c) (t.flag .c) ∧
    t.f &&& 0x0F = s.f &&& 0x0F

/-- R32, all 179 instructions. The flags an instruction writes are compared too: each is the same whatever the flags it
may not read held, and a flag it does not write keeps its own value. That JR and CCF do depend on their flag is
JrRelative and CcfInvertsCarry. -/
def Obligations.FlagReaders : Prop :=
  ∀ (i : Instr) (s : State) (x : Byte),
    (∀ g, i.form.readsFlag = some g → State.flag { s with f := x } g = s.flag g) →
    mapNext State.withoutF (exec i { s with f := x }) = mapNext State.withoutF (exec i s) ∧
    ∀ t u : State, exec i s = .next t → exec i { s with f := x } = .next u →
      ∀ g : Flag, (i.form.flagEffect g ≠ .kept → u.flag g = t.flag g) ∧
        (i.form.flagEffect g = .kept → u.flag g = State.flag { s with f := x } g)

/-- R70: all forms without a data or stack write. -/
def Obligations.MemoryKeptByNonStoringForms : Prop :=
  ∀ (i : Instr) (s t : State), i.form.store s = none → exec i s = .next t →
    ∀ x : Word, t.mem.read8 x = s.mem.read8 x

/-- The frame of the stores, with the address `Form.store` computes as the meanings do (s.pair, sp - 2). -/
def Obligations.MemoryKeptOutsideStoredBytes : Prop :=
  ∀ (i : Instr) (s t : State) (addr width : Nat), i.form.store s = some (addr, width) → exec i s = .next t →
    ∀ x : Word, x.toNat < addr ∨ addr + width ≤ x.toNat → t.mem.read8 x = s.mem.read8 x

/-- R78 and R249; the canonical form of memory (log 7) is a premise. -/
def Obligations.StoredByteIsFetchedNext : Prop :=
  (∀ (s : State) (i j : Instr) (r : R8) (rest : List Byte), s.mem.wf = true → s.fits 2 →
    decode s.window = .ok (i, rest) → i.form = .ldHLR r → s.pair .hl = s.pc + 1 →
    decode [s.r8 r] = .ok (j, []) → ∃ t, step s = .next t ∧ step t = exec j t) ∧
  (∀ (s : State) (i j : Instr) (p : Ptr) (rest : List Byte), s.mem.wf = true → s.fits 2 →
    decode s.window = .ok (i, rest) → i.form = .ldPtrA p → s.pair p.pair = s.pc + 1 →
    decode [s.a] = .ok (j, []) → ∃ t, step s = .next t ∧ step t = exec j t) ∧
  ∀ (s : State) (j : Instr) (rest : List Byte), s.mem.wf = true → s.fits 3 → 2 ≤ s.sp.toNat →
    decode s.window = .ok (.call (s.sp - 2), rest) →
    decode [loByte (s.pc + 3)] = .ok (j, []) → ∃ t, step s = .next t ∧ step t = exec j t

/-- R164. Constructor: nop. -/
def Obligations.NopAdvancesPc : Prop :=
  (∀ rest, decode (0b00000000 :: rest) = .ok (.nop, rest)) ∧
  ∀ s : State, (s.fits 1 → exec .nop s = .next (s.after 1 4)) ∧ (¬s.fits 1 → exec .nop s = endOfMemory)

/-- R120. Constructors: ldBImm, ldCImm, ldDImm, ldEImm, ldHImm, ldLImm, ldAImm. -/
def Obligations.LdRegImm : Prop :=
  ∀ (i : Instr) (r : R8) (n : Byte), i.form = .ldRN r n →
    (∀ rest, decode ((0b00#2 ++ r.code ++ 0b110#3 : BitVec 8) :: n :: rest) = .ok (i, rest)) ∧
    ∀ s : State, (s.fits 2 → exec i s = .next ((s.setR8 r n).after 2 8)) ∧ (¬s.fits 2 → exec i s = endOfMemory)

/-- R121. Constructors: the 49 named ld<r><r'> with r and r' in B, C, D, E, H, L, A (ldBB to ldAA). -/
def Obligations.LdRegReg : Prop :=
  ∀ (i : Instr) (r r' : R8), i.form = .ldRR r r' →
    (∀ rest, decode ((0b01#2 ++ r.code ++ r'.code : BitVec 8) :: rest) = .ok (i, rest)) ∧
    ∀ s : State, (s.fits 1 → exec i s = .next ((s.setR8 r (s.r8 r')).after 1 4)) ∧
      (s.fits 1 → r = r' → exec i s = .next (s.after 1 4)) ∧ (¬s.fits 1 → exec i s = endOfMemory)

/-- R122. Constructors: ldBAtHL, ldCAtHL, ldDAtHL, ldEAtHL, ldHAtHL, ldLAtHL, ldAAtHL. -/
def Obligations.LdRegFromHL : Prop :=
  ∀ (i : Instr) (r : R8), i.form = .ldRHL r →
    (∀ rest, decode ((0b01#2 ++ r.code ++ 0b110#3 : BitVec 8) :: rest) = .ok (i, rest)) ∧
    ∀ s : State, (s.fits 1 → exec i s = .next ((s.setR8 r (s.mem.read8 (s.h ++ s.l))).after 1 8)) ∧
      (¬s.fits 1 → exec i s = endOfMemory)

/-- R123. Constructors: ldAtHLB, ldAtHLC, ldAtHLD, ldAtHLE, ldAtHLH, ldAtHLL, ldAtHLA. -/
def Obligations.LdHLFromReg : Prop :=
  ∀ (i : Instr) (r : R8), i.form = .ldHLR r →
    (∀ rest, decode ((0b01110#5 ++ r.code : BitVec 8) :: rest) = .ok (i, rest)) ∧
    ∀ s : State,
      (s.fits 1 → ∃ m : Memory, exec i s = .next ({ s with mem := m }.after 1 8) ∧
        (s.mem.wf = true → m.read8 (s.h ++ s.l) = s.r8 r) ∧
        (s.mem.wf = true → ∀ t : State, t.mem = m → t.pc = s.h ++ s.l → t.window.head? = some (s.r8 r)) ∧
        ∀ x : Word, x ≠ s.h ++ s.l → m.read8 x = s.mem.read8 x) ∧
      (¬s.fits 1 → exec i s = endOfMemory)

/-- R124, R125. Constructors: ldAAtBC, ldAAtDE. -/
def Obligations.LdAFromPointer : Prop :=
  (∀ rest, decode (0x0A :: rest) = .ok (.ldAAtBC, rest)) ∧ (∀ rest, decode (0x1A :: rest) = .ok (.ldAAtDE, rest)) ∧
  ∀ s : State,
    (s.fits 1 → exec .ldAAtBC s = .next ({ s with a := s.mem.read8 (s.b ++ s.c) }.after 1 8)) ∧
    (s.fits 1 → exec .ldAAtDE s = .next ({ s with a := s.mem.read8 (s.d ++ s.e) }.after 1 8)) ∧
    (¬s.fits 1 → exec .ldAAtBC s = endOfMemory ∧ exec .ldAAtDE s = endOfMemory)

/-- R126, R127. Constructors: ldAtBCA, ldAtDEA. -/
def Obligations.LdPointerFromA : Prop :=
  (∀ rest, decode (0x02 :: rest) = .ok (.ldAtBCA, rest)) ∧ (∀ rest, decode (0x12 :: rest) = .ok (.ldAtDEA, rest)) ∧
  ∀ s : State,
    (s.fits 1 → ∃ m : Memory, exec .ldAtBCA s = .next ({ s with mem := m }.after 1 8) ∧
      (s.mem.wf = true → m.read8 (s.b ++ s.c) = s.a) ∧
      (s.mem.wf = true → ∀ t : State, t.mem = m → t.pc = s.b ++ s.c → t.window.head? = some s.a) ∧
      ∀ x : Word, x ≠ s.b ++ s.c → m.read8 x = s.mem.read8 x) ∧
    (s.fits 1 → ∃ m : Memory, exec .ldAtDEA s = .next ({ s with mem := m }.after 1 8) ∧
      (s.mem.wf = true → m.read8 (s.d ++ s.e) = s.a) ∧
      (s.mem.wf = true → ∀ t : State, t.mem = m → t.pc = s.d ++ s.e → t.window.head? = some s.a) ∧
      ∀ x : Word, x ≠ s.d ++ s.e → m.read8 x = s.mem.read8 x) ∧
    (¬s.fits 1 → exec .ldAtBCA s = endOfMemory ∧ exec .ldAtDEA s = endOfMemory)

/-- R128. Constructors: ldBCImm16, ldDEImm16, ldHLImm16. -/
def Obligations.LdPairImm : Prop :=
  ∀ (i : Instr) (p : PairOp) (lo hi : Byte), i.form = .ldPairNN p (hi ++ lo) →
    (∀ rest, decode ((0b00#2 ++ p.code ++ 0b0001#4 : BitVec 8) :: lo :: hi :: rest) = .ok (i, rest)) ∧
    ∀ s : State,
      (s.fits 3 → exec i s = .next (((s.setReg p.pair.hi hi).setReg p.pair.lo lo).after 3 12)) ∧
      (¬s.fits 3 → exec i s = endOfMemory)

/-- R129. Constructor: ldSPImm16. -/
def Obligations.LdSpImm : Prop :=
  ∀ lo hi : Byte, (∀ rest, decode (0b00110001 :: lo :: hi :: rest) = .ok (.ldSPImm16 (hi ++ lo), rest)) ∧
    ∀ (s : State) (nn : Word), (s.fits 3 → exec (.ldSPImm16 nn) s = .next ({ s with sp := nn }.after 3 12)) ∧
      (¬s.fits 3 → exec (.ldSPImm16 nn) s = endOfMemory) ∧
      ∀ (t : State) (target : Word), t.sp = nn → nn.toNat < 2 → t.fits 3 →
        exec (.call target) t = .fault (.outOfRangeAddress ((nn.toNat : Int) - 2))

/-- R130. Constructor: ldSPHL. -/
def Obligations.LdSpFromHL : Prop :=
  (∀ rest, decode (0b11111001 :: rest) = .ok (.ldSPHL, rest)) ∧
  ∀ s : State, (s.fits 1 → exec .ldSPHL s = .next ({ s with sp := s.h ++ s.l }.after 1 8)) ∧
    (¬s.fits 1 → exec .ldSPHL s = endOfMemory)

/-- R150, R151, R154, R157 (and R166). Constructors: andB to andA, orB to orA, xorB to xorA (21). -/
def Obligations.LogicRegister : Prop :=
  (∀ x v : Byte, logicResult .and x v = x &&& v ∧ logicResult .or x v = x ||| v ∧ logicResult .xor x v = x ^^^ v) ∧
  ∀ (i : Instr) (op : LogicOp) (r : R8), i.form = .logicR op r →
    (∀ rest, decode (((match op with | .and => 0b10100#5 | .or => 0b10110#5 | .xor => 0b10101#5) ++ r.code : BitVec 8)
      :: rest) = .ok (i, rest)) ∧
    ∀ s : State,
      (s.fits 1 → exec i s = .next ({ s with
          a := logicResult op s.a (s.r8 r)
          f := assignFlags s.f (logicResult op s.a (s.r8 r) == 0) false (op == LogicOp.and) false }.after 1 4)) ∧
      (¬s.fits 1 → exec i s = endOfMemory)

/-- R152, R155, R158. Constructors: andAtHL, orAtHL, xorAtHL. -/
def Obligations.LogicMemory : Prop :=
  ∀ (i : Instr) (op : LogicOp), i.form = .logicHL op →
    (∀ rest, decode (((match op with | .and => 0b10100110 | .or => 0b10110110 | .xor => 0b10101110) : Byte)
      :: rest) = .ok (i, rest)) ∧
    ∀ s : State,
      (s.fits 1 → exec i s = .next ({ s with
          a := logicResult op s.a (s.mem.read8 (s.h ++ s.l))
          f := assignFlags s.f (logicResult op s.a (s.mem.read8 (s.h ++ s.l)) == 0) false (op == LogicOp.and) false }.after 1 8)) ∧
      (¬s.fits 1 → exec i s = endOfMemory)

/-- R153, R156, R159. Constructors: andImm, orImm, xorImm. -/
def Obligations.LogicImmediate : Prop :=
  ∀ (i : Instr) (op : LogicOp) (n : Byte), i.form = .logicN op n →
    (∀ rest, decode (((match op with | .and => 0b11100110 | .or => 0b11110110 | .xor => 0b11101110) : Byte)
      :: n :: rest) = .ok (i, rest)) ∧
    ∀ s : State,
      (s.fits 2 → exec i s = .next ({ s with
          a := logicResult op s.a n
          f := assignFlags s.f (logicResult op s.a n == 0) false (op == LogicOp.and) false }.after 2 8)) ∧
      (¬s.fits 2 → exec i s = endOfMemory)

/-- R160. Constructors: incB, incC, incD, incE, incH, incL, incA. -/
def Obligations.IncRegister : Prop :=
  ∀ (i : Instr) (r : R8), i.form = .incR r →
    (∀ rest, decode ((0b00#2 ++ r.code ++ 0b100#3 : BitVec 8) :: rest) = .ok (i, rest)) ∧
    ∀ (s : State) (new : Byte), new.toNat = ((s.r8 r).toNat + 1) % 256 →
      (s.fits 1 → exec i s = .next ({ s.setR8 r new with
          f := assignFlags s.f (new == 0) false ((s.r8 r).toNat % 16 == 15) (s.flag .c) }.after 1 4)) ∧
      (¬s.fits 1 → exec i s = endOfMemory)

/-- R161. Constructor: cpl. -/
def Obligations.CplComplementsA : Prop :=
  (∀ rest, decode (0b00101111 :: rest) = .ok (.cpl, rest)) ∧
  ∀ s : State, (s.fits 1 → exec .cpl s = .next ({ s with
      a := 0xFF ^^^ s.a, f := assignFlags s.f (s.flag .z) true true (s.flag .c) }.after 1 4)) ∧
    (¬s.fits 1 → exec .cpl s = endOfMemory)

/-- R162. Constructor: ccf. -/
def Obligations.CcfInvertsCarry : Prop :=
  (∀ rest, decode (0b00111111 :: rest) = .ok (.ccf, rest)) ∧
  ∀ s : State, (s.fits 1 → exec .ccf s = .next ({ s with
      f := assignFlags s.f (s.flag .z) false false (!s.flag .c) }.after 1 4)) ∧
    (¬s.fits 1 → exec .ccf s = endOfMemory)

/-- R163. Constructor: scf. -/
def Obligations.ScfSetsCarry : Prop :=
  (∀ rest, decode (0b00110111 :: rest) = .ok (.scf, rest)) ∧
  ∀ s : State, (s.fits 1 → exec .scf s = .next ({ s with
      f := assignFlags s.f (s.flag .z) false false true }.after 1 4)) ∧
    (¬s.fits 1 → exec .scf s = endOfMemory)

/-- R180. Constructor: jp. -/
def Obligations.JpAbsolute : Prop :=
  ∀ lo hi : Byte, (∀ rest, decode (0b11000011 :: lo :: hi :: rest) = .ok (.jp (hi ++ lo), rest)) ∧
    ∀ (s : State) (nn : Word),
      (s.pc.toNat < 0xFFFD → exec (.jp nn) s = .next { s with pc := nn, returned := some (.cycles 16) }) ∧
      (0xFFFD ≤ s.pc.toNat → exec (.jp nn) s = endOfMemory)

/-- R181 to R185. Constructors: jrNZ, jrZ, jrNC, jrC. -/
def Obligations.JrRelative : Prop :=
  (∀ s : State, s.holds .nz = !s.f.getLsbD 7 ∧ s.holds .z = s.f.getLsbD 7 ∧
    s.holds .nc = !s.f.getLsbD 4 ∧ s.holds .c = s.f.getLsbD 4) ∧
  ∀ (i : Instr) (cc : Cond) (e : Int), i.form = .jr cc e →
    (∀ (b : Byte) (rest : List Byte), b.toInt = e →
      decode ((0b001#3 ++ cc.code ++ 0b000#3 : BitVec 8) :: b :: rest) = .ok (i, rest)) ∧
    ∀ s : State,
      (s.fits 2 → s.holds cc = false → exec i s = .next (s.after 2 8)) ∧
      (∀ target : Word, (target.toNat : Int) = s.pc.toNat + 2 + e → s.fits 2 → s.holds cc = true →
        exec i s = .next { s with pc := target, returned := some (.cycles 12) }) ∧
      (s.fits 2 → s.holds cc = true → (s.pc.toNat + 2 + e < 0 ∨ (0xFFFF : Int) < s.pc.toNat + 2 + e) →
        exec i s = .fault (.outOfRangeAddress (s.pc.toNat + 2 + e))) ∧
      (¬s.fits 2 → exec i s = endOfMemory)

/-- R186 (and R187). Constructor: call. A fault carries no state (R214; log 3). -/
def Obligations.CallPushesReturnAddress : Prop :=
  ∀ lo hi : Byte, (∀ rest, decode (0b11001101 :: lo :: hi :: rest) = .ok (.call (hi ++ lo), rest)) ∧
    ∀ (s : State) (nn : Word),
      (s.pc.toNat < 0xFFFD → 2 ≤ s.sp.toNat →
        ∃ m : Memory,
          exec (.call nn) s = .next { s with sp := s.sp - 2, pc := nn, mem := m, returned := some (.cycles 24) } ∧
          (s.mem.wf = true → (m.read8 (s.sp - 2)).toNat = (s.pc.toNat + 3) % 256) ∧
          (s.mem.wf = true → (m.read8 (s.sp - 1)).toNat = (s.pc.toNat + 3) / 256) ∧
          (s.mem.wf = true → ∀ t : State, t.mem = m → t.pc = s.sp - 2 →
            t.window.take 2 = [m.read8 (s.sp - 2), m.read8 (s.sp - 1)]) ∧
          ∀ x : Word, x ≠ s.sp - 2 → x ≠ s.sp - 1 → m.read8 x = s.mem.read8 x) ∧
      (s.pc.toNat < 0xFFFD → s.sp.toNat < 2 →
        exec (.call nn) s = .fault (.outOfRangeAddress ((s.sp.toNat : Int) - 2))) ∧
      (0xFFFD ≤ s.pc.toNat → exec (.call nn) s = endOfMemory)

/-- R200. Constructors: bit0B to bit7A (56). -/
def Obligations.BitTest : Prop :=
  ∀ (i : Instr) (b : Fin 8) (r : R8), i.form = .bit b r →
    (∀ rest, decode (0b11001011 :: (0b01#2 ++ BitVec.ofNat 3 b ++ r.code : BitVec 8) :: rest) = .ok (i, rest)) ∧
    ∀ s : State,
      (s.fits 2 → exec i s = .next ({ s with
          f := assignFlags s.f (!(s.r8 r).getLsbD b) false true (s.flag .c) }.after 2 8)) ∧
      (¬s.fits 2 → exec i s = endOfMemory)

/-- R37; RESET_PC is a parameter with the spec's value 0x0100 (R10). -/
def Obligations.PowerOnState : Prop :=
  (∀ p : Word, (∀ q : Reg, (construct p).reg q = 0) ∧ (∀ q : Pair, (construct p).pair q = 0) ∧
    (∀ g : Flag, (construct p).flag g = false) ∧ (construct p).sp = 0xFFFE ∧ (construct p).pc = p ∧
    ∀ x : Word, (construct p).mem.read8 x = 0) ∧
  State.reset = construct 0x0100 ∧
  ∀ s : State, (∀ q : Reg, (init s).reg q = 0) ∧ (init s).sp = 0xFFFE ∧ (init s).pc = 0x0100 ∧ (init s).mem = s.mem

/-- R241. -/
def Obligations.InitForgetsRegistersAndKeepsMemory : Prop :=
  (∀ (p : Word) (s t : State), s.mem = t.mem → initWith p s = initWith p t) ∧
  (∀ (p : Word) (s : State) (x : Word), (initWith p s).mem.read8 x = s.mem.read8 x) ∧
  ∀ (p q : Word) (s : State), initWith p (initWith q s) = initWith p s

/-- R21. -/
def Obligations.RegisterCellsIndependent : Prop :=
  ∀ (s : State) (r q : Reg) (v : Byte),
    (s.setReg r v).reg q = (if q = r then v else s.reg q) ∧ (s.setReg r v).sp = s.sp ∧ (s.setReg r v).pc = s.pc ∧
    (s.setReg r v).mem = s.mem ∧ (s.setReg r v).returned = s.returned

/-- R22, the round-trip law. -/
def Obligations.PairsAreTwoRegisters : Prop :=
  (∀ s : State, s.pair .af = s.a ++ s.f ∧ s.pair .bc = s.b ++ s.c ∧ s.pair .de = s.d ++ s.e ∧
    s.pair .hl = s.h ++ s.l) ∧
  ∀ (s : State) (p : Pair) (w : Word),
    (s.setPair p w).pair p = w ∧
    ((s.setPair p w).reg p.hi).toNat = w.toNat / 256 ∧ ((s.setPair p w).reg p.lo).toNat = w.toNat % 256 ∧
    (∀ q : Reg, q ≠ p.hi → q ≠ p.lo → (s.setPair p w).reg q = s.reg q) ∧
    (s.setPair p w).sp = s.sp ∧ (s.setPair p w).pc = s.pc ∧ (s.setPair p w).mem = s.mem

/-- R27 (C3: tested for non-zero) and R28. -/
def Obligations.FlagsAreBitsOfF : Prop :=
  (∀ s : State, s.flag .z = s.f.getLsbD 7 ∧ s.flag .n = s.f.getLsbD 6 ∧ s.flag .h = s.f.getLsbD 5 ∧
    s.flag .c = s.f.getLsbD 4) ∧
  ∀ (s : State) (g : Flag) (b : Bool), ∃ k : Nat, (k = match g with | .z => 7 | .n => 6 | .h => 5 | .c => 4) ∧
    (s.setFlag g b).f.getLsbD k = b ∧ (∀ j, j ≠ k → (s.setFlag g b).f.getLsbD j = s.f.getLsbD j) ∧
    s.setFlag g b = { s with f := (s.setFlag g b).f }

/-- R30, with its formula spelled out. -/
def Obligations.FlagWritesAsOneAssignment : Prop :=
  (∀ (s : State) (z n h c : Bool),
    (((s.setFlag .z z).setFlag .n n).setFlag .h h).setFlag .c c = { s with f := assignFlags s.f z n h c }) ∧
  (∀ (s : State) (g : Flag), s.setFlag g (s.flag g) = s) ∧
  ∀ (f : Byte) (z n h c : Bool), assignFlags f z n h c =
    (f &&& 0x0F) ||| (BitVec.ofNat 8 z.toNat <<< 7) ||| (BitVec.ofNat 8 n.toNat <<< 6) |||
      (BitVec.ofNat 8 h.toNat <<< 5) ||| (BitVec.ofNat 8 c.toNat <<< 4)

/-- R63 (and R62); the canonical form is log 7. -/
def Obligations.ByteAccessors : Prop :=
  ∀ (s : State) (a : Word) (v : Byte), ∃ m : Memory, hostWrite8 a v s = .next { s with mem := m } ∧
    (s.mem.wf = true → m.read8 a = v) ∧ (∀ x : Word, x ≠ a → m.read8 x = s.mem.read8 x) ∧
    (s.mem.wf = true → m.wf = true)

/-- R64 and R65 (and R68). The fault carries no state, so no byte is written. -/
def Obligations.WordAccessors : Prop :=
  ∀ (s : State) (a w : Word),
    (a ≠ 0xFFFF → hostReadWord a s = .ok (s.mem.read8 (a + 1) ++ s.mem.read8 a)) ∧
    (a ≠ 0xFFFF → ∃ m : Memory, hostWriteWord a w s = .next { s with mem := m } ∧
      (s.mem.wf = true → (m.read8 a).toNat = w.toNat % 256 ∧ (m.read8 (a + 1)).toNat = w.toNat / 256 ∧
        hostReadWord a { s with mem := m } = .ok w) ∧
      ∀ x : Word, x ≠ a → x ≠ a + 1 → m.read8 x = s.mem.read8 x) ∧
    (a = 0xFFFF → hostReadWord a s = .error (.outOfRangeAddress 0x10000) ∧
      hostWriteWord a w s = .fault (.outOfRangeAddress 0x10000))

/-- R66 (log 9 on R67's other words). The fault carries no state, so no byte is written. -/
def Obligations.LoadBlockCopiesOrFaults : Prop :=
  ∀ (s : State) (a : Word) (bytes : List Byte),
    (a.toNat + bytes.length ≤ 65536 → ∃ m : Memory, hostLoadBlock a bytes s = .next { s with mem := m } ∧
      (s.mem.wf = true → ∀ (x : Word) (k : Nat) (h : k < bytes.length), x.toNat = a.toNat + k → m.read8 x = bytes[k]) ∧
      ∀ x : Word, x.toNat < a.toNat ∨ a.toNat + bytes.length ≤ x.toNat → m.read8 x = s.mem.read8 x) ∧
    (65536 < a.toNat + bytes.length →
      hostLoadBlock a bytes s = .fault (.outOfRangeAddress ((a.toNat : Int) + bytes.length - 1))) ∧
    hostLoadBlock a [] s = .next s

/-- R36, its flag operations; the register and pair operations are RegisterCellsIndependent and PairsAreTwoRegisters. -/
def Obligations.HostFlagAccess : Prop :=
  ∀ (s : State) (b : Bool),
    (getFlagBit 7 s = .ok (s.flag .z) ∧ getFlagBit 6 s = .ok (s.flag .n) ∧ getFlagBit 5 s = .ok (s.flag .h) ∧
      getFlagBit 4 s = .ok (s.flag .c)) ∧
    (setFlagBit 7 b s = .next (s.setFlag .z b) ∧ setFlagBit 6 b s = .next (s.setFlag .n b) ∧
      setFlagBit 5 b s = .next (s.setFlag .h b) ∧ setFlagBit 4 b s = .next (s.setFlag .c b)) ∧
    ∀ k : Nat, k ≠ 7 → k ≠ 6 → k ≠ 5 → k ≠ 4 →
      getFlagBit k s = .error (.notAFlag k) ∧ setFlagBit k b s = .refused (.notAFlag k)

/-- The canonical form of log 7 is canonical. -/
def Obligations.EqualReadsMeanEqualMemory : Prop :=
  ∀ m m' : Memory, m.wf = true → m'.wf = true → (∀ x : Word, m.read8 x = m'.read8 x) → m = m'

/-- R227, R243: steps from s, each returning Cycles, lead to the state whose step is the first to return UndefinedOpcode,
and `spent` is the sum of the counts on the way. Where the budget is looked at is the driver's (log 12). -/
def Obligations.NormalRunEnd : Prop :=
  ∀ (limit : Option Nat) (steps : Nat) (s t : State) (bytes : List Byte) (start : Word) (spent : Nat),
    (drive limit steps 0 s = .undefinedOpcode bytes start t spent ↔
      ∃ (counts : List Nat) (u : State), CycleRun s counts u ∧ step u = .next t ∧
        t.returned = some (.undefinedOpcode bytes start) ∧ spent = counts.sum ∧ counts.length < steps ∧
        ∀ n, limit = some n → counts.sum < n) ∧
    (drive limit steps 0 s = .undefinedOpcode bytes start t spent →
      (bytes = [t.mem.read8 start] ∨ bytes = [t.mem.read8 start, t.mem.read8 (start + 1)]) ∧
      (Returned.undefinedOpcode bytes start).legal = true ∧ t.pc.toNat = start.toNat + bytes.length ∧ spent % 4 = 0 ∧
      ∀ (counts : List Nat) (u : State), CycleRun s counts u → step u = .next t → u.pc = start ∧
        t = { u with pc := t.pc, returned := t.returned })

/-- R227, the other two ends, and R228: a run with no normal end ends at the first fault, or where the budget runs out.
Where the budget is looked at, before each step, is the driver's (log 12). -/
def Obligations.FaultAndBudgetRunEnds : Prop :=
  ∀ (limit : Option Nat) (steps : Nat) (s : State),
    (∀ e : Fault, drive limit steps 0 s = .fault e ↔
      ∃ (counts : List Nat) (u : State), CycleRun s counts u ∧ step u = .fault e ∧ counts.length < steps ∧
        ∀ n, limit = some n → counts.sum < n) ∧
    (∀ (u : State) (spent : Nat), drive limit steps 0 s = .budget u spent ↔
      ∃ counts : List Nat, CycleRun s counts u ∧ spent = counts.sum ∧ counts.length ≤ steps ∧
        (counts.length = steps ∨ ∃ n, limit = some n ∧ n ≤ counts.sum) ∧
        ∀ k, k < counts.length → ∀ n, limit = some n → (counts.take k).sum < n) ∧
    ∀ r : Refusal, drive limit steps 0 s ≠ .refused r
end

