-- ==== Sys2Proof/Laws/Decode.lean ====
section
/-! SUPPORT. The decoder's helpers invert the encoder's, and what each entry of the tables is. -/
namespace Sys2Proof

@[simp] theorem hiByte_joinBytes (hi lo : Byte) : hiByte (joinBytes hi lo) = hi := by
  refine BitVec.eq_of_toNat_eq ?_
  have h1 := hi.isLt
  have h2 := lo.isLt
  simp only [hiByte, joinBytes, BitVec.extractLsb'_toNat, BitVec.toNat_append, Nat.shiftRight_eq_div_pow,
    Nat.shiftLeft_eq]
  rw [← Nat.shiftLeft_eq, ← Nat.shiftLeft_add_eq_or_of_lt h2, Nat.shiftLeft_eq]
  omega

@[simp] theorem loByte_joinBytes (hi lo : Byte) : loByte (joinBytes hi lo) = lo := by
  refine BitVec.eq_of_toNat_eq ?_
  have h2 := lo.isLt
  simp only [loByte, joinBytes, BitVec.extractLsb'_toNat, BitVec.toNat_append, Nat.shiftRight_zero]
  rw [← Nat.shiftLeft_add_eq_or_of_lt h2, Nat.shiftLeft_eq]
  omega

theorem toNat_joinBytes (hi lo : Byte) : (joinBytes hi lo).toNat = hi.toNat * 256 + lo.toNat := by
  have h2 := lo.isLt
  simp only [joinBytes, BitVec.toNat_append]
  rw [← Nat.shiftLeft_add_eq_or_of_lt h2, Nat.shiftLeft_eq]

theorem toNat_hiByte (w : Word) : (hiByte w).toNat = w.toNat / 256 := by
  have := w.isLt
  simp only [hiByte, BitVec.extractLsb'_toNat, Nat.shiftRight_eq_div_pow]
  omega

theorem toNat_loByte (w : Word) : (loByte w).toNat = w.toNat % 256 := by
  simp only [loByte, BitVec.extractLsb'_toNat, Nat.shiftRight_zero]

@[simp] theorem joinBytes_hi_lo (w : Word) : joinBytes (hiByte w) (loByte w) = w := by
  refine BitVec.eq_of_toNat_eq ?_
  rw [toNat_joinBytes, toNat_hiByte, toNat_loByte]
  omega

/-- `sext16` is the two's-complement value of the byte (R11). -/
theorem sext16_eq_toInt (v : Byte) : sext16 v = v.toInt := by
  revert v
  decide

@[simp] theorem dispByte_sext16 (v : Byte) : dispByte (sext16 v) = v := by
  rw [sext16_eq_toInt]
  exact BitVec.ofInt_toInt

theorem sext16_dispByte {e : Int} (h : dispInRange e = true) : sext16 (dispByte e) = e := by
  simp only [dispInRange, Bool.and_eq_true, decide_eq_true_eq] at h
  rw [sext16_eq_toInt, dispByte, BitVec.toInt_ofInt]
  exact Int.bmod_eq_of_le (by omega) (by omega)

theorem dispInRange_sext16 (v : Byte) : dispInRange (sext16 v) = true := by
  revert v
  decide

/-- What an entry of the base table under a byte is: operands come after that byte, and the instruction encodes so. -/
def Row.encodes (b : Byte) : Row → Prop
  | .op i => i.form.length = 1 ∧ i.wf = true ∧ encode i = [b]
  | .imm8 f => ∀ n, (f n).form.length = 2 ∧ (f n).wf = true ∧ encode (f n) = [b, n]
  | .disp f => ∀ e, (f e).form.length = 2 ∧ ((f e).wf = dispInRange e) ∧ encode (f e) = [b, dispByte e]
  | .imm16 f => ∀ nn, (f nn).form.length = 3 ∧ (f nn).wf = true ∧ encode (f nn) = [b, loByte nn, hiByte nn]

/-- A list of entries, the first under the byte `n`, each encoding under its own byte. -/
def rowEncodes : Nat → List (Option Row) → Prop
  | _, [] => True
  | n, none :: rest => rowEncodes (n + 1) rest
  | n, some row :: rest => row.encodes (BitVec.ofNat 8 n) ∧ rowEncodes (n + 1) rest

theorem rowEncodes_getD {n : Nat} {l : List (Option Row)} (h : rowEncodes n l) {k : Nat} {row : Row}
    (hk : l.getD k none = some row) : row.encodes (BitVec.ofNat 8 (n + k)) := by
  induction l generalizing n k with
  | nil => simp at hk
  | cons x rest ih =>
    cases k with
    | zero =>
      cases x with
      | none => simp at hk
      | some r =>
        simp only [List.getD_cons_zero, Option.some.injEq] at hk
        exact hk ▸ h.1
    | succ k =>
      rw [List.getD_cons_succ] at hk
      have hrest : rowEncodes (n + 1) rest := by
        cases x with
        | none => exact h
        | some r => exact h.2
      rw [show n + (k + 1) = n + 1 + k by omega]
      exact ih hrest hk

/-- Every row of the base map encodes under its bytes. -/
theorem baseMap_encodes (hi : Nat) : rowEncodes (16 * hi) (baseMap.getD hi []) := by
  rcases hi with _ | _ | _ | _ | _ | _ | _ | _ | _ | _ | _ | _ | _ | _ | _ | _ | hi
  all_goals first
    | exact trivial
    | (repeat' first
        | exact trivial
        | exact ⟨rfl, rfl, rfl⟩
        | exact fun _ => ⟨rfl, rfl, rfl⟩
        | refine ⟨?_, ?_⟩)

/-- An entry of the base table encodes under its byte. -/
theorem baseTable_encodes {b : Byte} {row : Row} (h : baseTable b = some row) : row.encodes b := by
  have := rowEncodes_getD (baseMap_encodes (b.toNat / 16)) h
  rwa [show 16 * (b.toNat / 16) + b.toNat % 16 = b.toNat by omega, BitVec.ofNat_toNat, BitVec.setWidth_eq] at this

/-- An entry of the extended table encodes under ESCAPE and its byte. -/
theorem extendedTable_encodes : ∀ {b : Byte} {i : Instr}, extendedTable b = some i →
    i.form.length = 2 ∧ i.wf = true ∧ encode i = [Config.escape, b] := by
  have h : ∀ b : Byte, (extendedTable b).all
      (fun i => i.form.length == 2 && i.wf && encode i == [Config.escape, b]) = true := by decide
  intro b i hb
  have := h b
  rw [hb] at this
  simpa [and_assoc] using this

/-- ESCAPE has no entry of its own (R103). -/
theorem baseTable_escape : baseTable Config.escape = none := rfl

/-- The length of a base entry's instruction. -/
def Row.length : Row → Nat
  | .op _ => 1
  | .imm8 _ => 2
  | .disp _ => 2
  | .imm16 _ => 3

/-- A base entry's instruction, from the two bytes after its own. -/
def Row.build (b2 b3 : Byte) : Row → Instr
  | .op i => i
  | .imm8 f => f b2
  | .disp f => f (sext16 b2)
  | .imm16 f => f (joinBytes b3 b2)

theorem Row.build_length {b : Byte} {row : Row} (h : row.encodes b) (b2 b3 : Byte) :
    (row.build b2 b3).form.length = row.length := by
  cases row with
  | op i => exact h.1
  | imm8 f => exact (h b2).1
  | disp f => exact (h (sext16 b2)).1
  | imm16 f => exact (h (joinBytes b3 b2)).1

end Sys2Proof
end

