-- ==== Sys2Proof/Laws/State.lean ====
section
/-! SUPPORT. One lemma per field per named update of the state, so that no later proof unfolds an update. -/
namespace Sys2Proof.Machine

theorem error_congr {α : Type} {v w : Int} (h : v = w) :
    (Except.error (Fault.outOfRangeAddress v) : Checked α) = Except.error (Fault.outOfRangeAddress w) := by rw [h]

/-! ### Register writes -/

@[simp] theorem State.setReg_sp (s : State) (r : Reg) (v : Byte) : (s.setReg r v).sp = s.sp := by cases r <;> rfl
@[simp] theorem State.setReg_pc (s : State) (r : Reg) (v : Byte) : (s.setReg r v).pc = s.pc := by cases r <;> rfl
@[simp] theorem State.setReg_mem (s : State) (r : Reg) (v : Byte) : (s.setReg r v).mem = s.mem := by cases r <;> rfl
@[simp] theorem State.setReg_returned (s : State) (r : Reg) (v : Byte) : (s.setReg r v).returned = s.returned := by cases r <;> rfl

theorem State.setReg_reg (s : State) (r q : Reg) (v : Byte) :
    (s.setReg r v).reg q = if q = r then v else s.reg q := by
  cases r <;> cases q <;> rfl

@[simp] theorem State.setReg_reg_same (s : State) (r : Reg) (v : Byte) : (s.setReg r v).reg r = v := by
  simp [State.setReg_reg]

theorem State.setReg_reg_of_ne (s : State) {r q : Reg} (v : Byte) (h : q ≠ r) :
    (s.setReg r v).reg q = s.reg q := by
  simp [State.setReg_reg, h]

/-- No operand field names F (R23, R95). -/
@[simp] theorem R8.reg_ne_f (r : R8) : r.reg ≠ .f := by cases r <;> decide

@[simp] theorem State.setR8_f (s : State) (r : R8) (v : Byte) : (s.setR8 r v).f = s.f := by cases r <;> rfl
@[simp] theorem State.setR8_sp (s : State) (r : R8) (v : Byte) : (s.setR8 r v).sp = s.sp := by cases r <;> rfl
@[simp] theorem State.setR8_pc (s : State) (r : R8) (v : Byte) : (s.setR8 r v).pc = s.pc := by cases r <;> rfl
@[simp] theorem State.setR8_mem (s : State) (r : R8) (v : Byte) : (s.setR8 r v).mem = s.mem := by cases r <;> rfl
@[simp] theorem State.setR8_returned (s : State) (r : R8) (v : Byte) : (s.setR8 r v).returned = s.returned := by cases r <;> rfl

theorem State.setR8_reg (s : State) (r : R8) (q : Reg) (v : Byte) :
    (s.setR8 r v).reg q = if q = r.reg then v else s.reg q := State.setReg_reg s r.reg q v

/-! ### Pair writes -/

@[simp] theorem State.setPair_sp (s : State) (p : Pair) (w : Word) : (s.setPair p w).sp = s.sp := by simp [State.setPair]
@[simp] theorem State.setPair_pc (s : State) (p : Pair) (w : Word) : (s.setPair p w).pc = s.pc := by simp [State.setPair]
@[simp] theorem State.setPair_mem (s : State) (p : Pair) (w : Word) : (s.setPair p w).mem = s.mem := by simp [State.setPair]
@[simp] theorem State.setPair_returned (s : State) (p : Pair) (w : Word) : (s.setPair p w).returned = s.returned := by simp [State.setPair]

theorem State.setPair_reg (s : State) (p : Pair) (q : Reg) (w : Word) :
    (s.setPair p w).reg q = if q = p.lo then loByte w else if q = p.hi then hiByte w else s.reg q := by
  simp only [State.setPair, State.setReg_reg]

/-- LD rr,nn names no pair that holds F (R96, R128). -/
@[simp] theorem State.setPair_pairOp_f (s : State) (p : PairOp) (w : Word) : (s.setPair p.pair w).f = s.f := by
  cases p <;> rfl

/-! ### Flag writes -/

@[simp] theorem State.setFlag_a (s : State) (g : Flag) (b : Bool) : (s.setFlag g b).a = s.a := rfl
@[simp] theorem State.setFlag_b (s : State) (g : Flag) (b : Bool) : (s.setFlag g b).b = s.b := rfl
@[simp] theorem State.setFlag_c (s : State) (g : Flag) (b : Bool) : (s.setFlag g b).c = s.c := rfl
@[simp] theorem State.setFlag_d (s : State) (g : Flag) (b : Bool) : (s.setFlag g b).d = s.d := rfl
@[simp] theorem State.setFlag_e (s : State) (g : Flag) (b : Bool) : (s.setFlag g b).e = s.e := rfl
@[simp] theorem State.setFlag_h (s : State) (g : Flag) (b : Bool) : (s.setFlag g b).h = s.h := rfl
@[simp] theorem State.setFlag_l (s : State) (g : Flag) (b : Bool) : (s.setFlag g b).l = s.l := rfl
@[simp] theorem State.setFlag_sp (s : State) (g : Flag) (b : Bool) : (s.setFlag g b).sp = s.sp := rfl
@[simp] theorem State.setFlag_pc (s : State) (g : Flag) (b : Bool) : (s.setFlag g b).pc = s.pc := rfl
@[simp] theorem State.setFlag_mem (s : State) (g : Flag) (b : Bool) : (s.setFlag g b).mem = s.mem := rfl
@[simp] theorem State.setFlag_returned (s : State) (g : Flag) (b : Bool) : (s.setFlag g b).returned = s.returned := rfl

@[simp] theorem State.setFlag_reg (s : State) (g : Flag) (b : Bool) {q : Reg} (h : q ≠ .f) :
    (s.setFlag g b).reg q = s.reg q := by
  cases q <;> first | rfl | exact absurd rfl h

/-! ### Stores -/

@[simp] theorem State.storeAt_a (s : State) (p : Pair) (v : Byte) : (s.storeAt p v).a = s.a := rfl
@[simp] theorem State.storeAt_f (s : State) (p : Pair) (v : Byte) : (s.storeAt p v).f = s.f := rfl
@[simp] theorem State.storeAt_b (s : State) (p : Pair) (v : Byte) : (s.storeAt p v).b = s.b := rfl
@[simp] theorem State.storeAt_c (s : State) (p : Pair) (v : Byte) : (s.storeAt p v).c = s.c := rfl
@[simp] theorem State.storeAt_d (s : State) (p : Pair) (v : Byte) : (s.storeAt p v).d = s.d := rfl
@[simp] theorem State.storeAt_e (s : State) (p : Pair) (v : Byte) : (s.storeAt p v).e = s.e := rfl
@[simp] theorem State.storeAt_h (s : State) (p : Pair) (v : Byte) : (s.storeAt p v).h = s.h := rfl
@[simp] theorem State.storeAt_l (s : State) (p : Pair) (v : Byte) : (s.storeAt p v).l = s.l := rfl
@[simp] theorem State.storeAt_sp (s : State) (p : Pair) (v : Byte) : (s.storeAt p v).sp = s.sp := rfl
@[simp] theorem State.storeAt_pc (s : State) (p : Pair) (v : Byte) : (s.storeAt p v).pc = s.pc := rfl
@[simp] theorem State.storeAt_returned (s : State) (p : Pair) (v : Byte) : (s.storeAt p v).returned = s.returned := rfl

@[simp] theorem State.storeAt_reg (s : State) (p : Pair) (v : Byte) (q : Reg) : (s.storeAt p v).reg q = s.reg q := by
  cases q <;> rfl

@[simp] theorem State.storeAt_mem (s : State) (p : Pair) (v : Byte) :
    (s.storeAt p v).mem = s.mem.write8 (s.pair p) v := rfl

/-! ### The value a step returns -/

@[simp] theorem State.returnCycles_a (s : State) (n : Nat) : (s.returnCycles n).a = s.a := rfl
@[simp] theorem State.returnCycles_f (s : State) (n : Nat) : (s.returnCycles n).f = s.f := rfl
@[simp] theorem State.returnCycles_b (s : State) (n : Nat) : (s.returnCycles n).b = s.b := rfl
@[simp] theorem State.returnCycles_c (s : State) (n : Nat) : (s.returnCycles n).c = s.c := rfl
@[simp] theorem State.returnCycles_d (s : State) (n : Nat) : (s.returnCycles n).d = s.d := rfl
@[simp] theorem State.returnCycles_e (s : State) (n : Nat) : (s.returnCycles n).e = s.e := rfl
@[simp] theorem State.returnCycles_h (s : State) (n : Nat) : (s.returnCycles n).h = s.h := rfl
@[simp] theorem State.returnCycles_l (s : State) (n : Nat) : (s.returnCycles n).l = s.l := rfl
@[simp] theorem State.returnCycles_sp (s : State) (n : Nat) : (s.returnCycles n).sp = s.sp := rfl
@[simp] theorem State.returnCycles_pc (s : State) (n : Nat) : (s.returnCycles n).pc = s.pc := rfl
@[simp] theorem State.returnCycles_mem (s : State) (n : Nat) : (s.returnCycles n).mem = s.mem := rfl

@[simp] theorem State.returnCycles_returned (s : State) (n : Nat) :
    (s.returnCycles n).returned = some (.cycles n) := rfl

@[simp] theorem State.returnCycles_reg (s : State) (n : Nat) (q : Reg) : (s.returnCycles n).reg q = s.reg q := by
  cases q <;> rfl

@[simp] theorem State.returnUndefined_a (s : State) (bytes : List Byte) (start : Word) : (s.returnUndefined bytes start).a = s.a := rfl
@[simp] theorem State.returnUndefined_f (s : State) (bytes : List Byte) (start : Word) : (s.returnUndefined bytes start).f = s.f := rfl
@[simp] theorem State.returnUndefined_b (s : State) (bytes : List Byte) (start : Word) : (s.returnUndefined bytes start).b = s.b := rfl
@[simp] theorem State.returnUndefined_c (s : State) (bytes : List Byte) (start : Word) : (s.returnUndefined bytes start).c = s.c := rfl
@[simp] theorem State.returnUndefined_d (s : State) (bytes : List Byte) (start : Word) : (s.returnUndefined bytes start).d = s.d := rfl
@[simp] theorem State.returnUndefined_e (s : State) (bytes : List Byte) (start : Word) : (s.returnUndefined bytes start).e = s.e := rfl
@[simp] theorem State.returnUndefined_h (s : State) (bytes : List Byte) (start : Word) : (s.returnUndefined bytes start).h = s.h := rfl
@[simp] theorem State.returnUndefined_l (s : State) (bytes : List Byte) (start : Word) : (s.returnUndefined bytes start).l = s.l := rfl
@[simp] theorem State.returnUndefined_sp (s : State) (bytes : List Byte) (start : Word) : (s.returnUndefined bytes start).sp = s.sp := rfl
@[simp] theorem State.returnUndefined_pc (s : State) (bytes : List Byte) (start : Word) : (s.returnUndefined bytes start).pc = s.pc := rfl
@[simp] theorem State.returnUndefined_mem (s : State) (bytes : List Byte) (start : Word) : (s.returnUndefined bytes start).mem = s.mem := rfl

@[simp] theorem State.returnUndefined_returned (s : State) (bytes : List Byte) (start : Word) :
    (s.returnUndefined bytes start).returned = some (.undefinedOpcode bytes start) := rfl

@[simp] theorem State.returnUndefined_reg (s : State) (bytes : List Byte) (start : Word) (q : Reg) :
    (s.returnUndefined bytes start).reg q = s.reg q := by
  cases q <;> rfl

/-! ### The state after an instruction -/

@[simp] theorem State.after_a (s : State) (len n : Nat) : (s.after len n).a = s.a := rfl
@[simp] theorem State.after_f (s : State) (len n : Nat) : (s.after len n).f = s.f := rfl
@[simp] theorem State.after_b (s : State) (len n : Nat) : (s.after len n).b = s.b := rfl
@[simp] theorem State.after_c (s : State) (len n : Nat) : (s.after len n).c = s.c := rfl
@[simp] theorem State.after_d (s : State) (len n : Nat) : (s.after len n).d = s.d := rfl
@[simp] theorem State.after_e (s : State) (len n : Nat) : (s.after len n).e = s.e := rfl
@[simp] theorem State.after_h (s : State) (len n : Nat) : (s.after len n).h = s.h := rfl
@[simp] theorem State.after_l (s : State) (len n : Nat) : (s.after len n).l = s.l := rfl
@[simp] theorem State.after_sp (s : State) (len n : Nat) : (s.after len n).sp = s.sp := rfl
@[simp] theorem State.after_mem (s : State) (len n : Nat) : (s.after len n).mem = s.mem := rfl

@[simp] theorem State.after_pc (s : State) (len n : Nat) : (s.after len n).pc = s.pc + BitVec.ofNat 16 len := rfl

@[simp] theorem State.after_returned (s : State) (len n : Nat) :
    (s.after len n).returned = some (.cycles n) := rfl

@[simp] theorem State.after_reg (s : State) (len n : Nat) (q : Reg) : (s.after len n).reg q = s.reg q := by
  cases q <;> rfl

end Sys2Proof.Machine
end

