-- ==== Sys2Proof/Laws/Flags.lean ====
section
/-! SUPPORT. The flag writes of each instruction as one assignment to F (R30), and the flag tests as single bits (R27). -/
namespace Sys2Proof.Machine

/-- The bit of F a flag stands at (R27). -/
def flagPos : Flag → Nat
  | .z => 7 | .n => 6 | .h => 5 | .c => 4

theorem flag_byte_test (x : Byte) : ∀ g : Flag, (x &&& flagMask g != 0) = x.getLsbD (flagPos g) := by
  intro g
  revert x
  cases g <;> decide +kernel

/-- A flag is its bit of F. -/
theorem State.flag_eq (s : State) (g : Flag) : s.flag g = s.f.getLsbD (flagPos g) := flag_byte_test s.f g

theorem State.setFlag_f (s : State) (g : Flag) (b : Bool) :
    (s.setFlag g b).f = (s.f &&& ~~~ flagMask g) ||| (if b then flagMask g else 0) := rfl

/-- A flag write is a write of F alone. -/
theorem State.setFlag_eq (s : State) (g : Flag) (b : Bool) : s.setFlag g b = { s with f := (s.setFlag g b).f } := rfl

/-- Two bytes with the same eight bits are equal. -/
theorem byte_ext {x y : Byte} (h0 : x.getLsbD 0 = y.getLsbD 0) (h1 : x.getLsbD 1 = y.getLsbD 1)
    (h2 : x.getLsbD 2 = y.getLsbD 2) (h3 : x.getLsbD 3 = y.getLsbD 3) (h4 : x.getLsbD 4 = y.getLsbD 4)
    (h5 : x.getLsbD 5 = y.getLsbD 5) (h6 : x.getLsbD 6 = y.getLsbD 6) (h7 : x.getLsbD 7 = y.getLsbD 7) : x = y := by
  refine BitVec.eq_of_getLsbD_eq fun i hi => ?_
  rcases i with _ | _ | _ | _ | _ | _ | _ | _ | i
  all_goals first | assumption | omega

theorem logicFlags_byte (op : LogicOp) (x : Byte) (z : Bool) :
    ((((((((x &&& ~~~ flagMask .z) ||| (if z then flagMask .z else 0)) &&& ~~~ flagMask .n) ||| 0)
      &&& ~~~ flagMask .h) ||| (if op == .and then flagMask .h else 0)) &&& ~~~ flagMask .c) ||| 0)
      = assignFlags x z false (op == .and) false := by
  apply byte_ext <;> cases op <;> cases z <;> simp [assignFlags, flagMask]

/-- The flags of a logic operation, in one assignment (R30, R150). -/
theorem State.logicFlags_eq (s : State) (op : LogicOp) (res : Byte) :
    s.logicFlags op res = { s with f := assignFlags s.f (res == 0) false (op == .and) false } :=
  congrArg (fun f => { s with f := f }) (logicFlags_byte op s.f (res == 0))

theorem zhFlags_byte (x : Byte) (z h : Bool) :
    ((((((x &&& ~~~ flagMask .z) ||| (if z then flagMask .z else 0)) &&& ~~~ flagMask .n) ||| 0)
      &&& ~~~ flagMask .h) ||| (if h then flagMask .h else 0))
      = assignFlags x z false h (x &&& flagMask .c != 0) := by
  rw [flag_byte_test]
  apply byte_ext <;> cases z <;> cases h <;> cases hx : x.getLsbD 4 <;> simp_all [assignFlags, flagMask, flagPos]

/-- The flags of INC, in one assignment; C keeps its value (R30, R160). -/
theorem State.incFlags_eq (s : State) (old new : Byte) :
    s.incFlags old new =
      { s with f := assignFlags s.f (new == 0) false (old &&& 0x0F == 0x0F) (s.flag .c) } :=
  congrArg (fun f => { s with f := f }) (zhFlags_byte s.f (new == 0) (old &&& 0x0F == 0x0F))

/-- The flags of BIT, in one assignment; C keeps its value (R30, R200). -/
theorem State.bitFlags_eq (s : State) (bit : Bool) :
    s.bitFlags bit = { s with f := assignFlags s.f (!bit) false true (s.flag .c) } :=
  congrArg (fun f => { s with f := f }) (zhFlags_byte s.f (!bit) true)

theorem cplFlags_byte (x : Byte) :
    ((((x &&& ~~~ flagMask .n) ||| flagMask .n) &&& ~~~ flagMask .h) ||| flagMask .h)
      = assignFlags x (x &&& flagMask .z != 0) true true (x &&& flagMask .c != 0) := by
  rw [flag_byte_test, flag_byte_test]
  apply byte_ext <;> cases hx : x.getLsbD 7 <;> cases hy : x.getLsbD 4 <;> simp_all [assignFlags, flagMask, flagPos]

theorem carryFlags_byte (x : Byte) (c : Bool) :
    ((((((x &&& ~~~ flagMask .c) ||| (if c then flagMask .c else 0)) &&& ~~~ flagMask .n) ||| 0)
      &&& ~~~ flagMask .h) ||| 0)
      = assignFlags x (x &&& flagMask .z != 0) false false c := by
  rw [flag_byte_test]
  apply byte_ext <;> cases c <;> cases hx : x.getLsbD 7 <;> simp_all [assignFlags, flagMask, flagPos]

/-- The flags of CPL, in one assignment (R30, R161). -/
theorem State.cplFlags_eq (s : State) :
    (s.setFlag .n true).setFlag .h true = { s with f := assignFlags s.f (s.flag .z) true true (s.flag .c) } :=
  congrArg (fun f => { s with f := f }) (cplFlags_byte s.f)

/-- The flags of CCF and SCF, in one assignment (R30, R162, R163). -/
theorem State.carryFlags_eq (s : State) (c : Bool) :
    ((s.setFlag .c c).setFlag .n false).setFlag .h false =
      { s with f := assignFlags s.f (s.flag .z) false false c } :=
  congrArg (fun f => { s with f := f }) (carryFlags_byte s.f c)

/-- The four flags and the low bits of an assigned F. -/
theorem assignFlags_bits (f : Byte) (z n h c : Bool) :
    (assignFlags f z n h c).getLsbD 7 = z ∧ (assignFlags f z n h c).getLsbD 6 = n ∧
    (assignFlags f z n h c).getLsbD 5 = h ∧ (assignFlags f z n h c).getLsbD 4 = c ∧
    assignFlags f z n h c &&& 0x0F = f &&& 0x0F := by
  refine ⟨?_, ?_, ?_, ?_, ?_⟩
  rotate_right
  · apply byte_ext <;> cases z <;> cases n <;> cases h <;> cases c <;> simp [assignFlags]
  all_goals cases z <;> cases n <;> cases h <;> cases c <;> simp [assignFlags]

end Sys2Proof.Machine
end

