-- ==== Sys2Proof/Laws/Memory.lean ====
section
/-! SUPPORT. The memory laws: read after write, and that every operation keeps the canonical form (log 7). -/
namespace Sys2Proof.Machine

/-- A canonical memory from `lo` on lists nothing below `lo`. -/
theorem Memory.byteAt_below {m : Memory} {lo a : Nat} (h : m.wfFrom lo = true) (ha : a < lo) : m.byteAt a = 0 := by
  induction m generalizing lo with
  | nil => rfl
  | cons c rest ih =>
    obtain ⟨b, v⟩ := c
    simp only [Memory.wfFrom, Bool.and_eq_true, decide_eq_true_eq] at h
    obtain ⟨⟨⟨h1, -⟩, -⟩, h4⟩ := h
    rw [Memory.byteAt, if_neg (by omega)]
    exact ih h4 (by omega)

/-- The bound of the canonical form may be lowered. -/
theorem Memory.wfFrom_mono {m : Memory} {lo lo' : Nat} (h : m.wfFrom lo = true) (hle : lo' ≤ lo) :
    m.wfFrom lo' = true := by
  cases m with
  | nil => rfl
  | cons c rest =>
    obtain ⟨b, v⟩ := c
    simp only [Memory.wfFrom, Bool.and_eq_true, decide_eq_true_eq] at h ⊢
    exact ⟨⟨⟨by omega, h.1.1.2⟩, h.1.2⟩, h.2⟩

/-- Setting a byte reads back, in a canonical memory. -/
theorem Memory.byteAt_setByte_same {m : Memory} {lo : Nat} (h : m.wfFrom lo = true) (a : Nat) (v : Byte) :
    (m.setByte a v).byteAt a = v := by
  induction m generalizing lo with
  | nil => unfold Memory.setByte; split <;> simp_all [Memory.byteAt]
  | cons c rest ih =>
    obtain ⟨b, w⟩ := c
    have h' := h
    simp only [Memory.wfFrom, Bool.and_eq_true, decide_eq_true_eq] at h
    by_cases hlt : a < b
    · by_cases hv : v = 0
      · rw [Memory.setByte, if_pos hlt, if_pos hv, hv, Memory.byteAt, if_neg (by omega)]
        exact Memory.byteAt_below h.2 (by omega)
      · rw [Memory.setByte, if_pos hlt, if_neg hv, Memory.byteAt, if_pos rfl]
    · by_cases heq : a = b
      · by_cases hv : v = 0
        · rw [Memory.setByte, if_neg hlt, if_pos heq, if_pos hv, hv]
          exact Memory.byteAt_below h.2 (by omega)
        · rw [Memory.setByte, if_neg hlt, if_pos heq, if_neg hv, Memory.byteAt, if_pos rfl]
      · rw [Memory.setByte, if_neg hlt, if_neg heq, Memory.byteAt, if_neg heq]
        exact ih h.2

/-- Setting a byte leaves every other address alone. -/
theorem Memory.byteAt_setByte_other (m : Memory) {a a' : Nat} (v : Byte) (h : a' ≠ a) :
    (m.setByte a v).byteAt a' = m.byteAt a' := by
  induction m with
  | nil => unfold Memory.setByte; split <;> simp_all [Memory.byteAt]
  | cons c rest ih =>
    obtain ⟨b, w⟩ := c
    unfold Memory.setByte
    split
    · split
      · rfl
      · simp [Memory.byteAt, h]
    · split
      · next heq =>
        subst heq
        split <;> simp [Memory.byteAt, h]
      · simp only [Memory.byteAt, ih]

/-- Setting a byte keeps the canonical form. -/
theorem Memory.setByte_wfFrom {m : Memory} {lo a : Nat} (h : m.wfFrom lo = true) (hlo : lo ≤ a)
    (ha : a < Config.memSize) (v : Byte) : (m.setByte a v).wfFrom lo = true := by
  induction m generalizing lo with
  | nil => unfold Memory.setByte; split <;> simp_all [Memory.wfFrom]
  | cons c rest ih =>
    obtain ⟨b, w⟩ := c
    have h' := h
    simp only [Memory.wfFrom, Bool.and_eq_true, decide_eq_true_eq] at h
    obtain ⟨⟨⟨h1, h2⟩, h3⟩, h4⟩ := h
    unfold Memory.setByte
    split
    · split
      · exact h'
      · next hlt hv =>
        simp only [Memory.wfFrom, Bool.and_eq_true, decide_eq_true_eq]
        exact ⟨⟨⟨hlo, ha⟩, hv⟩, ⟨⟨by omega, h2⟩, h3⟩, h4⟩
    · split
      · next heq =>
        split
        · exact Memory.wfFrom_mono h4 (by omega)
        · next hv =>
          simp only [Memory.wfFrom, Bool.and_eq_true, decide_eq_true_eq]
          exact ⟨⟨⟨hlo, ha⟩, hv⟩, heq ▸ h4⟩
      · simp only [Memory.wfFrom, Bool.and_eq_true, decide_eq_true_eq]
        exact ⟨⟨⟨h1, h2⟩, h3⟩, ih h4 (by omega)⟩

theorem Memory.setByte_wf {m : Memory} {a : Nat} (h : m.wf = true) (ha : a < Config.memSize) (v : Byte) :
    (m.setByte a v).wf = true :=
  Memory.setByte_wfFrom h (Nat.zero_le a) ha v

theorem Memory.write8_wf {m : Memory} (h : m.wf = true) (addr : Word) (v : Byte) : (m.write8 addr v).wf = true :=
  Memory.setByte_wf h addr.isLt v

theorem checkRange_fits {addr : Word} {n : Nat} (h : addr.toNat + n ≤ 65536) : checkRange addr n = .ok () := if_pos h

theorem checkRange_over {addr : Word} {n : Nat} (h : ¬addr.toNat + n ≤ 65536) :
    checkRange addr n = .error (.outOfRangeAddress ((addr.toNat : Int) + n - 1)) := if_neg h

/-- A word write answers exactly when the word fits, and then with both bytes set, low byte first. -/
theorem Memory.writeWord_eq (m : Memory) (addr w : Word) :
    m.writeWord addr w =
      if addr.toNat + 2 ≤ 65536 then .ok ((m.setByte addr.toNat (loByte w)).setByte (addr.toNat + 1) (hiByte w))
      else .error (.outOfRangeAddress ((addr.toNat : Int) + 1)) := by
  by_cases h : addr.toNat + 2 ≤ 65536
  · rw [Memory.writeWord, checkRange_fits h, if_pos h]; rfl
  · rw [Memory.writeWord, checkRange_over h, if_neg h]
    exact error_congr (by omega)

/-- A word read answers exactly when the word fits. -/
theorem Memory.readWord_eq (m : Memory) (addr : Word) :
    m.readWord addr =
      if addr.toNat + 2 ≤ 65536 then .ok (joinBytes (m.byteAt (addr.toNat + 1)) (m.byteAt addr.toNat))
      else .error (.outOfRangeAddress ((addr.toNat : Int) + 1)) := by
  by_cases h : addr.toNat + 2 ≤ 65536
  · rw [Memory.readWord, checkRange_fits h, if_pos h]; rfl
  · rw [Memory.readWord, checkRange_over h, if_neg h]
    exact error_congr (by omega)

theorem Memory.writeWord_wf {m m' : Memory} {addr w : Word} (h : m.wf = true) (hw : m.writeWord addr w = .ok m') :
    m'.wf = true := by
  rw [Memory.writeWord_eq] at hw
  split at hw
  · next hle =>
    cases hw
    exact Memory.setByte_wf (Memory.setByte_wf h (by simp only [Config.memSize]; omega) _)
      (by simp only [Config.memSize]; omega) _
  · cases hw

theorem Memory.setBytes_wf {m : Memory} {a : Nat} {bytes : List Byte} (h : m.wf = true)
    (ha : a + bytes.length ≤ Config.memSize) : (m.setBytes a bytes).wf = true := by
  induction bytes generalizing m a with
  | nil => exact h
  | cons v rest ih =>
    rw [List.length_cons] at ha
    exact ih (Memory.setByte_wf h (by omega) v) (by omega)

/-- Setting a block leaves the addresses outside it alone. -/
theorem Memory.byteAt_setBytes_other (m : Memory) {a x : Nat} {bytes : List Byte}
    (h : x < a ∨ a + bytes.length ≤ x) : (m.setBytes a bytes).byteAt x = m.byteAt x := by
  induction bytes generalizing m a with
  | nil => rfl
  | cons v rest ih =>
    rw [List.length_cons] at h
    rw [Memory.setBytes, ih _ (by omega), Memory.byteAt_setByte_other _ _ (by omega)]

/-- The `k`-th byte of a block that was set reads back, in a canonical memory. -/
theorem Memory.byteAt_setBytes_same {m : Memory} {a : Nat} {bytes : List Byte} (h : m.wf = true)
    (ha : a + bytes.length ≤ Config.memSize) {k : Nat} (hk : k < bytes.length) :
    (m.setBytes a bytes).byteAt (a + k) = bytes[k] := by
  induction bytes generalizing m a k with
  | nil => simp at hk
  | cons v rest ih =>
    rw [List.length_cons] at ha hk
    have hv : (m.setByte a v).wf = true := Memory.setByte_wf h (by omega) v
    cases k with
    | zero =>
      rw [Memory.setBytes, Nat.add_zero, Memory.byteAt_setBytes_other _ (by omega)]
      exact Memory.byteAt_setByte_same h a v
    | succ k =>
      rw [Memory.setBytes, show a + (k + 1) = a + 1 + k by omega]
      exact ih hv (by omega) (by omega)

/-- `loadBlock` answers exactly when the block fits. -/
theorem Memory.loadBlock_eq (m : Memory) (addr : Word) (bytes : List Byte) :
    m.loadBlock addr bytes =
      if addr.toNat + bytes.length ≤ 65536 then .ok (m.setBytes addr.toNat bytes)
      else .error (.outOfRangeAddress ((addr.toNat : Int) + bytes.length - 1)) := by
  by_cases h : addr.toNat + bytes.length ≤ 65536
  · rw [Memory.loadBlock, checkRange_fits h, if_pos h]; rfl
  · rw [Memory.loadBlock, checkRange_over h, if_neg h]; rfl

theorem Memory.loadBlock_wf {m m' : Memory} {addr : Word} {bytes : List Byte} (h : m.wf = true)
    (hl : m.loadBlock addr bytes = .ok m') : m'.wf = true := by
  rw [Memory.loadBlock_eq] at hl
  split at hl
  · next hle => cases hl; exact Memory.setBytes_wf h hle
  · cases hl

/-- A canonical memory reads 0 above the address space. -/
theorem Memory.byteAt_above {m : Memory} {lo a : Nat} (h : m.wfFrom lo = true) (ha : Config.memSize ≤ a) :
    m.byteAt a = 0 := by
  induction m generalizing lo with
  | nil => rfl
  | cons c rest ih =>
    obtain ⟨b, v⟩ := c
    simp only [Memory.wfFrom, Bool.and_eq_true, decide_eq_true_eq] at h
    rw [Memory.byteAt, if_neg (by omega)]
    exact ih h.2

/-- The memory of the reset state has the canonical form. -/
theorem reset_mem_wf : State.reset.mem.wf = true := rfl

end Sys2Proof.Machine
end

