-- ==== Sys2Proof/Laws/Ops.lean ====
section
/-! SUPPORT. One spec lemma per shared operation: address checks, pc advance, fetches, and `runHandler`. -/
namespace Sys2Proof.Machine

theorem inAddrRange_eq (v : Int) : inAddrRange v = decide (0 ≤ v ∧ v ≤ 0xFFFF) := by
  cases v with
  | ofNat n => simp only [inAddrRange]; exact decide_eq_decide.mpr (by simp only [Int.ofNat_eq_natCast]; omega)
  | negSucc n => simp only [inAddrRange]; exact (decide_eq_false (by omega)).symm

/-- `checkaddr` as R14 writes it. -/
theorem checkAddr_eq (v : Int) :
    checkAddr v = if 0 ≤ v ∧ v ≤ 0xFFFF then .ok (BitVec.ofInt 16 v) else .error (.outOfRangeAddress v) := by
  simp only [checkAddr, inAddrRange_eq, decide_eq_true_eq]

theorem checkAddr_of_inRange {v : Int} (h : 0 ≤ v ∧ v ≤ 0xFFFF) : checkAddr v = .ok (BitVec.ofInt 16 v) := by
  rw [checkAddr_eq, if_pos h]

theorem checkAddr_of_outOfRange {v : Int} (h : ¬(0 ≤ v ∧ v ≤ 0xFFFF)) :
    checkAddr v = .error (.outOfRangeAddress v) := by
  rw [checkAddr_eq, if_neg h]

/-- pc plus a natural number, range-checked. -/
theorem checkAddr_add (w : Word) (n : Nat) :
    checkAddr ((w.toNat : Int) + n) =
      if w.toNat + n ≤ 0xFFFF then .ok (w + BitVec.ofNat 16 n)
      else .error (.outOfRangeAddress ((w.toNat : Int) + n)) := by
  rw [checkAddr_eq]
  by_cases h : w.toNat + n ≤ 0xFFFF
  · rw [if_pos (by omega), if_pos h]
    refine congrArg Except.ok (BitVec.eq_of_toNat_eq ?_)
    rw [show (w.toNat : Int) + (n : Int) = ((w.toNat + n : Nat) : Int) by push_cast; rfl, BitVec.ofInt_natCast]
    simp [BitVec.toNat_ofNat, BitVec.toNat_add]
  · rw [if_neg (by omega), if_neg h]

theorem toNat_add_ofNat {w : Word} {n : Nat} (h : w.toNat + n ≤ 0xFFFF) :
    (w + BitVec.ofNat 16 n).toNat = w.toNat + n := by
  rw [BitVec.toNat_add, BitVec.toNat_ofNat, Nat.add_mod_mod, Nat.mod_eq_of_lt (by omega)]

/-- Advancing pc over `n` bytes: exactly when they fit, and otherwise 0x10000 is recorded (R15, R213). -/
theorem State.advance_eq (s : State) (n : Nat) :
    s.advance n =
      if s.pc.toNat + n ≤ 0xFFFF then .ok { s with pc := s.pc + BitVec.ofNat 16 n }
      else .error (.outOfRangeAddress 0x10000) := by
  induction n generalizing s with
  | zero => rw [if_pos (by have := s.pc.isLt; omega)]; simp [State.advance]
  | succ n ih =>
    have hc := checkAddr_add s.pc 1
    simp only [Nat.cast_one] at hc
    simp only [State.advance, hc]
    by_cases h : s.pc.toNat + 1 ≤ 0xFFFF
    · rw [if_pos h]
      simp only [bind, Except.bind, ih, toNat_add_ofNat h]
      by_cases h2 : s.pc.toNat + 1 + n ≤ 0xFFFF
      · rw [if_pos h2, if_pos (by omega), BitVec.add_assoc, ← BitVec.ofNat_add, Nat.add_comm 1 n]
      · rw [if_neg h2, if_neg (by omega)]
    · rw [if_neg h, if_neg (by omega)]
      have := s.pc.isLt
      simp only [bind, Except.bind]
      exact error_congr (by omega)

/-- `Fetch8()`: the byte at pc, or the end-of-memory fault (R15). -/
theorem State.fetch8_eq (s : State) :
    s.fetch8 =
      if s.pc.toNat + 1 ≤ 0xFFFF then .ok (s.mem.read8 s.pc, { s with pc := s.pc + 1 })
      else .error (.outOfRangeAddress 0x10000) := by
  have hc := checkAddr_add s.pc 1
  simp only [Nat.cast_one] at hc
  simp only [State.fetch8, hc]
  split
  · rfl
  · have := s.pc.isLt
    simp only [bind, Except.bind]
    exact error_congr (by omega)

/-- `Fetch16()`: the word at pc, or the end-of-memory fault (R15). -/
theorem State.fetch16_eq (s : State) :
    s.fetch16 =
      if s.pc.toNat + 2 ≤ 0xFFFF then
        .ok (joinBytes (s.mem.byteAt (s.pc.toNat + 1)) (s.mem.byteAt s.pc.toNat), { s with pc := s.pc + 2 })
      else .error (.outOfRangeAddress 0x10000) := by
  have hc := checkAddr_add s.pc 2
  have hlt := s.pc.isLt
  simp only [Nat.cast_ofNat] at hc
  unfold State.fetch16
  rw [Memory.readWord_eq, hc]
  by_cases h : s.pc.toNat + 2 ≤ 0xFFFF
  · rw [if_pos h, if_pos (by omega), if_pos h]; rfl
  · rw [if_neg h, if_neg h]
    by_cases h2 : s.pc.toNat + 2 ≤ 65536
    · rw [if_pos h2]
      exact error_congr (by omega)
    · rw [if_neg h2]
      exact error_congr (by omega)

/-- What `runHandler` does: the end-of-memory fault, or the body on the state with pc past the instruction. -/
theorem runHandler_eq (len : Nat) (body : State → Checked State) (s : State) :
    runHandler len body s =
      if s.pc.toNat + len ≤ 0xFFFF then
        (match body { s with pc := s.pc + BitVec.ofNat 16 len } with
          | .ok t => .next t
          | .error e => .fault e)
      else endOfMemory := by
  unfold runHandler
  rw [State.advance_eq]
  by_cases h : s.pc.toNat + len ≤ 0xFFFF
  · rw [if_pos h, if_pos h]; rfl
  · rw [if_neg h, if_neg h]; rfl

/-- What `runHandler` does with a body that raises nothing. -/
theorem runHandler_simply (len n : Nat) (effect : State → State) (s : State) :
    runHandler len (simply effect n) s =
      if s.pc.toNat + len ≤ 0xFFFF then .next ((effect { s with pc := s.pc + BitVec.ofNat 16 len }).returnCycles n)
      else endOfMemory := by
  rw [runHandler_eq]; rfl

end Sys2Proof.Machine
end

