-- ==== Sys2Proof/Laws/Exec.lean ====
section
/-! SUPPORT. What each handler answers, in one equation: the next state in full, or the fault. Every later proof about
`exec` goes through `exec_eq` and these. -/
namespace Sys2Proof.Machine

/-- The shared operation of a form. -/
def runForm (f : Form) (s : State) : Res :=
  match f with
  | .nop => opNop s
  | .ldRN r n => opLdRN r n s
  | .ldRR r r' => opLdRR r r' s
  | .ldRHL r => opLdRHL r s
  | .ldHLR r => opLdHLR r s
  | .ldAPtr p => opLdAPtr p s
  | .ldPtrA p => opLdPtrA p s
  | .ldPairNN p nn => opLdPairNN p nn s
  | .ldSPNN nn => opLdSPNN nn s
  | .ldSPHL => opLdSPHL s
  | .logicR op r => opLogicR op r s
  | .logicHL op => opLogicHL op s
  | .logicN op n => opLogicN op n s
  | .incR r => opIncR r s
  | .cpl => opCpl s
  | .ccf => opCcf s
  | .scf => opScf s
  | .jp nn => opJp nn s
  | .jr cc e => opJr cc e s
  | .call nn => opCall nn s
  | .bit b r => opBit b r s

/-- An instruction runs its form. -/
theorem exec_eq (i : Instr) (s : State) : exec i s = runForm i.form s := by cases i <;> rfl

theorem opNop_eq (s : State) :
    opNop s = if s.pc.toNat + 1 ≤ 0xFFFF then .next (s.after 1 4) else endOfMemory := by
  rw [opNop, runHandler_simply]; rfl

theorem opLdRN_eq (r : R8) (n : Byte) (s : State) :
    opLdRN r n s = if s.pc.toNat + 2 ≤ 0xFFFF then .next ((s.setR8 r n).after 2 8) else endOfMemory := by
  rw [opLdRN, runHandler_simply]; cases r <;> rfl

theorem opLdRR_eq (r r' : R8) (s : State) :
    opLdRR r r' s =
      if s.pc.toNat + 1 ≤ 0xFFFF then .next ((s.setR8 r (s.r8 r')).after 1 4) else endOfMemory := by
  rw [opLdRR, runHandler_simply]; cases r <;> cases r' <;> rfl

theorem opLdRHL_eq (r : R8) (s : State) :
    opLdRHL r s =
      if s.pc.toNat + 1 ≤ 0xFFFF then .next ((s.setR8 r (s.loadAt .hl)).after 1 8) else endOfMemory := by
  rw [opLdRHL, runHandler_simply]; cases r <;> rfl

theorem opLdHLR_eq (r : R8) (s : State) :
    opLdHLR r s =
      if s.pc.toNat + 1 ≤ 0xFFFF then .next ((s.storeAt .hl (s.r8 r)).after 1 8) else endOfMemory := by
  rw [opLdHLR, runHandler_simply]; cases r <;> rfl

theorem opLdAPtr_eq (p : Ptr) (s : State) :
    opLdAPtr p s =
      if s.pc.toNat + 1 ≤ 0xFFFF then .next ((s.setR8 .a (s.loadAt p.pair)).after 1 8) else endOfMemory := by
  rw [opLdAPtr, runHandler_simply]; cases p <;> rfl

theorem opLdPtrA_eq (p : Ptr) (s : State) :
    opLdPtrA p s =
      if s.pc.toNat + 1 ≤ 0xFFFF then .next ((s.storeAt p.pair s.a).after 1 8) else endOfMemory := by
  rw [opLdPtrA, runHandler_simply]; cases p <;> rfl

theorem opLdPairNN_eq (p : PairOp) (nn : Word) (s : State) :
    opLdPairNN p nn s =
      if s.pc.toNat + 3 ≤ 0xFFFF then .next ((s.setPair p.pair nn).after 3 12) else endOfMemory := by
  rw [opLdPairNN, runHandler_simply]; cases p <;> rfl

theorem opLdSPNN_eq (nn : Word) (s : State) :
    opLdSPNN nn s = if s.pc.toNat + 3 ≤ 0xFFFF then .next ({ s with sp := nn }.after 3 12) else endOfMemory := by
  rw [opLdSPNN, runHandler_simply]; rfl

theorem opLdSPHL_eq (s : State) :
    opLdSPHL s =
      if s.pc.toNat + 1 ≤ 0xFFFF then .next ({ s with sp := s.pair .hl }.after 1 8) else endOfMemory := by
  rw [opLdSPHL, runHandler_simply]; rfl

/-- `Logic(op, v)`: the result in A, and F in one assignment (R30, R150). -/
theorem State.logic_eq (s : State) (op : LogicOp) (v : Byte) :
    s.logic op v =
      { s with
        a := logicResult op s.a v
        f := assignFlags s.f (logicResult op s.a v == 0) false (op == .and) false } := by
  simp only [State.logic, State.logicFlags_eq]

theorem opLogicR_eq (op : LogicOp) (r : R8) (s : State) :
    opLogicR op r s =
      if s.pc.toNat + 1 ≤ 0xFFFF then .next ((s.logic op (s.r8 r)).after 1 4) else endOfMemory := by
  rw [opLogicR, runHandler_simply]; cases r <;> simp only [State.logic_eq] <;> rfl

theorem opLogicHL_eq (op : LogicOp) (s : State) :
    opLogicHL op s =
      if s.pc.toNat + 1 ≤ 0xFFFF then .next ((s.logic op (s.loadAt .hl)).after 1 8) else endOfMemory := by
  rw [opLogicHL, runHandler_simply]; simp only [State.logic_eq]; rfl

theorem opLogicN_eq (op : LogicOp) (n : Byte) (s : State) :
    opLogicN op n s =
      if s.pc.toNat + 2 ≤ 0xFFFF then .next ((s.logic op n).after 2 8) else endOfMemory := by
  rw [opLogicN, runHandler_simply]; simp only [State.logic_eq]; rfl

/-- INC's effect: the new value in the register, and F in one assignment (R30, R160). -/
theorem State.inc_eq (s : State) (r : R8) :
    s.inc r =
      { s.setR8 r (s.r8 r + 1) with
        f := assignFlags s.f (s.r8 r + 1 == 0) false (s.r8 r &&& 0x0F == 0x0F) (s.flag .c) } := by
  simp only [State.inc, State.incFlags_eq, State.flag, State.setR8_f]

theorem opIncR_eq (r : R8) (s : State) :
    opIncR r s = if s.pc.toNat + 1 ≤ 0xFFFF then .next ((s.inc r).after 1 4) else endOfMemory := by
  rw [opIncR, runHandler_simply]; cases r <;> simp only [State.inc_eq] <;> rfl

theorem opCpl_eq (s : State) :
    opCpl s =
      if s.pc.toNat + 1 ≤ 0xFFFF then
        .next ({ s with a := ~~~ s.a, f := assignFlags s.f (s.flag .z) true true (s.flag .c) }.after 1 4)
      else endOfMemory := by
  rw [opCpl, runHandler_simply]; simp only [State.cplFlags_eq]; rfl

theorem opCcf_eq (s : State) :
    opCcf s =
      if s.pc.toNat + 1 ≤ 0xFFFF then
        .next ({ s with f := assignFlags s.f (s.flag .z) false false (!s.flag .c) }.after 1 4)
      else endOfMemory := by
  rw [opCcf, runHandler_simply]; simp only [State.carryFlags_eq]; rfl

theorem opScf_eq (s : State) :
    opScf s =
      if s.pc.toNat + 1 ≤ 0xFFFF then
        .next ({ s with f := assignFlags s.f (s.flag .z) false false true }.after 1 4)
      else endOfMemory := by
  rw [opScf, runHandler_simply]; simp only [State.carryFlags_eq]; rfl

theorem opJp_eq (nn : Word) (s : State) :
    opJp nn s =
      if s.pc.toNat + 3 ≤ 0xFFFF then .next { s with pc := nn, returned := some (.cycles 16) } else endOfMemory := by
  rw [opJp, runHandler_simply]; rfl

/-- JR: not taken, taken in range, taken out of range, or the end of memory (R181). -/
theorem opJr_eq (cc : Cond) (e : Int) (s : State) :
    opJr cc e s =
      if s.pc.toNat + 2 ≤ 0xFFFF then
        if s.holds cc then
          if 0 ≤ s.jrTarget e ∧ s.jrTarget e ≤ 0xFFFF then
            .next { s with pc := BitVec.ofInt 16 (s.jrTarget e), returned := some (.cycles 12) }
          else .fault (.outOfRangeAddress (s.jrTarget e))
        else .next (s.after 2 8)
      else endOfMemory := by
  rw [opJr, runHandler_eq]
  by_cases h : s.pc.toNat + 2 ≤ 0xFFFF
  · rw [if_pos h, if_pos h]
    have ht : (((s.pc + BitVec.ofNat 16 2).toNat : Int) + e) = s.jrTarget e := by
      rw [toNat_add_ofNat h, State.jrTarget]; push_cast; rfl
    have hh : State.holds { s with pc := s.pc + BitVec.ofNat 16 2 } cc = s.holds cc := by cases cc <;> rfl
    simp only [State.relJump, hh, ht, checkAddr_eq]
    cases s.holds cc
    · rfl
    · by_cases hr : 0 ≤ s.jrTarget e ∧ s.jrTarget e ≤ 0xFFFF
      · simp only [if_pos hr, if_true]; rfl
      · simp only [if_neg hr, if_true]; rfl
  · rw [if_neg h, if_neg h]

/-- CALL's memory: the return address stored low byte first at sp - 2 (R186). -/
def State.callMem (s : State) : Memory :=
  (s.mem.setByte (s.sp.toNat - 2) (loByte (s.pc + 3))).setByte (s.sp.toNat - 1) (hiByte (s.pc + 3))

theorem toNat_sub_two {w : Word} (h : 2 ≤ w.toNat) : (w - 2).toNat = w.toNat - 2 := by
  rw [BitVec.toNat_sub_of_le]
  · rfl
  · exact h

/-- CALL: the push and the jump, the stack fault, or the end of memory (R186). -/
theorem opCall_eq (nn : Word) (s : State) :
    opCall nn s =
      if s.pc.toNat + 3 ≤ 0xFFFF then
        if 2 ≤ s.sp.toNat then
          .next { s with sp := s.sp - 2, mem := s.callMem, pc := nn, returned := some (.cycles 24) }
        else .fault (.outOfRangeAddress ((s.sp.toNat : Int) - 2))
      else endOfMemory := by
  rw [opCall, runHandler_eq]
  by_cases h : s.pc.toNat + 3 ≤ 0xFFFF
  · rw [if_pos h, if_pos h]
    have hlt := s.sp.isLt
    by_cases hs : 2 ≤ s.sp.toNat
    · have hc : checkAddr ((s.sp.toNat : Int) - 2) = .ok (s.sp - 2) := by
        rw [checkAddr_of_inRange (by omega)]
        refine congrArg Except.ok (BitVec.eq_of_toNat_eq ?_)
        rw [show (s.sp.toNat : Int) - 2 = ((s.sp.toNat - 2 : Nat) : Int) by omega, BitVec.ofInt_natCast,
          toNat_sub_two hs, BitVec.toNat_ofNat, Nat.mod_eq_of_lt (by omega)]
      have hw : s.mem.writeWord (s.sp - 2) (s.pc + BitVec.ofNat 16 3) = .ok s.callMem := by
        rw [Memory.writeWord_eq, toNat_sub_two hs, if_pos (by omega), State.callMem,
          show s.sp.toNat - 2 + 1 = s.sp.toNat - 1 by omega]
        rfl
      simp only [State.push, hc, hw, bind, Except.bind, pure, Except.pure, if_pos hs]
      rfl
    · have hc : checkAddr ((s.sp.toNat : Int) - 2) = .error (.outOfRangeAddress ((s.sp.toNat : Int) - 2)) :=
        checkAddr_of_outOfRange (by omega)
      simp only [State.push, hc, bind, Except.bind, if_neg hs]
  · rw [if_neg h, if_neg h]

theorem opBit_eq (b : Fin 8) (r : R8) (s : State) :
    opBit b r s =
      if s.pc.toNat + 2 ≤ 0xFFFF then
        .next ({ s with f := assignFlags s.f (!s.bitOf b r) false true (s.flag .c) }.after 2 8)
      else endOfMemory := by
  rw [opBit, runHandler_simply]; simp only [State.bitFlags_eq]; cases r <;> rfl

/-- The memory after a CALL keeps the canonical form. -/
theorem State.callMem_wf {s : State} (h : s.mem.wf = true) (hs : 2 ≤ s.sp.toNat) : s.callMem.wf = true := by
  have := s.sp.isLt
  exact Memory.setByte_wf (Memory.setByte_wf h (by simp only [Config.memSize]; omega) _)
    (by simp only [Config.memSize]; omega) _

/-- What CALL stored, and that nothing else changed. -/
theorem State.callMem_byteAt {s : State} (hs : 2 ≤ s.sp.toNat) :
    (s.mem.wf = true → s.callMem.byteAt (s.sp.toNat - 2) = loByte (s.pc + 3)) ∧
    (s.mem.wf = true → s.callMem.byteAt (s.sp.toNat - 1) = hiByte (s.pc + 3)) ∧
    ∀ x, x ≠ s.sp.toNat - 2 → x ≠ s.sp.toNat - 1 → s.callMem.byteAt x = s.mem.byteAt x := by
  have hlt := s.sp.isLt
  refine ⟨fun h => ?_, fun h => ?_, fun x h1 h2 => ?_⟩
  · rw [State.callMem, Memory.byteAt_setByte_other _ _ (by omega), Memory.byteAt_setByte_same h]
  · exact Memory.byteAt_setByte_same
      (Memory.setByte_wf h (by simp only [Config.memSize]; omega) _) _ _
  · rw [State.callMem, Memory.byteAt_setByte_other _ _ h2, Memory.byteAt_setByte_other _ _ h1]

/-- The next state of a form that fits and raises nothing. -/
def Form.result (s : State) : Form → State
  | .nop => s.after 1 4
  | .ldRN r n => (s.setR8 r n).after 2 8
  | .ldRR r r' => (s.setR8 r (s.r8 r')).after 1 4
  | .ldRHL r => (s.setR8 r (s.loadAt .hl)).after 1 8
  | .ldHLR r => (s.storeAt .hl (s.r8 r)).after 1 8
  | .ldAPtr p => (s.setR8 .a (s.loadAt p.pair)).after 1 8
  | .ldPtrA p => (s.storeAt p.pair s.a).after 1 8
  | .ldPairNN p nn => (s.setPair p.pair nn).after 3 12
  | .ldSPNN nn => { s with sp := nn }.after 3 12
  | .ldSPHL => { s with sp := s.pair .hl }.after 1 8
  | .logicR op r => (s.logic op (s.r8 r)).after 1 4
  | .logicHL op => (s.logic op (s.loadAt .hl)).after 1 8
  | .logicN op n => (s.logic op n).after 2 8
  | .incR r => (s.inc r).after 1 4
  | .cpl => { s with a := ~~~ s.a, f := assignFlags s.f (s.flag .z) true true (s.flag .c) }.after 1 4
  | .ccf => { s with f := assignFlags s.f (s.flag .z) false false (!s.flag .c) }.after 1 4
  | .scf => { s with f := assignFlags s.f (s.flag .z) false false true }.after 1 4
  | .jp nn => { s with pc := nn, returned := some (.cycles 16) }
  | .jr cc e =>
    if s.holds cc then { s with pc := BitVec.ofInt 16 (s.jrTarget e), returned := some (.cycles 12) } else s.after 2 8
  | .call nn => { s with sp := s.sp - 2, mem := s.callMem, pc := nn, returned := some (.cycles 24) }
  | .bit b r => { s with f := assignFlags s.f (!s.bitOf b r) false true (s.flag .c) }.after 2 8

/-- The address a form that fits raises OutOfRangeAddress with, if it does: JR and CALL alone can (R213). -/
def Form.raises (s : State) : Form → Option Int
  | .jr cc e =>
    if s.holds cc = true ∧ (s.jrTarget e < 0 ∨ 0xFFFF < s.jrTarget e) then some (s.jrTarget e) else none
  | .call _ => if 2 ≤ s.sp.toNat then none else some ((s.sp.toNat : Int) - 2)
  | _ => none

/-- Everything `exec` can answer, for every instruction. -/
theorem exec_cases (i : Instr) (s : State) :
    exec i s =
      if s.pc.toNat + i.form.length ≤ 0xFFFF then
        (match Form.raises s i.form with
          | some a => .fault (.outOfRangeAddress a)
          | none => .next (Form.result s i.form))
      else endOfMemory := by
  rw [exec_eq]
  cases i.form with
  | jr cc e =>
    change opJr cc e s =
      if s.pc.toNat + 2 ≤ 0xFFFF then
        (match Form.raises s (.jr cc e) with
          | some a => .fault (.outOfRangeAddress a)
          | none => .next (Form.result s (.jr cc e)))
      else endOfMemory
    rw [opJr_eq]
    by_cases hf : s.pc.toNat + 2 ≤ 0xFFFF
    · rw [if_pos hf, if_pos hf]
      by_cases hr : 0 ≤ s.jrTarget e ∧ s.jrTarget e ≤ 0xFFFF
      · have hn : ¬(s.holds cc = true ∧ (s.jrTarget e < 0 ∨ 0xFFFF < s.jrTarget e)) := by omega
        simp only [Form.raises, Form.result, if_neg hn, if_pos hr]
        split <;> rfl
      · cases hh : s.holds cc
        · simp [Form.raises, Form.result, hh]
        · have hp : s.holds cc = true ∧ (s.jrTarget e < 0 ∨ 0xFFFF < s.jrTarget e) := ⟨hh, by omega⟩
          simp only [Form.raises, if_pos hp, if_neg hr, if_true]
    · rw [if_neg hf, if_neg hf]
  | call nn =>
    change opCall nn s =
      if s.pc.toNat + 3 ≤ 0xFFFF then
        (match Form.raises s (.call nn) with
          | some a => .fault (.outOfRangeAddress a)
          | none => .next (Form.result s (.call nn)))
      else endOfMemory
    rw [opCall_eq]
    by_cases hf : s.pc.toNat + 3 ≤ 0xFFFF
    · rw [if_pos hf, if_pos hf]
      by_cases hs : 2 ≤ s.sp.toNat
      · simp only [Form.raises, Form.result, if_pos hs]
      · simp only [Form.raises, if_neg hs]
    · rw [if_neg hf, if_neg hf]
  | nop => exact opNop_eq s
  | ldRN r n => exact opLdRN_eq r n s
  | ldRR r r' => exact opLdRR_eq r r' s
  | ldRHL r => exact opLdRHL_eq r s
  | ldHLR r => exact opLdHLR_eq r s
  | ldAPtr p => exact opLdAPtr_eq p s
  | ldPtrA p => exact opLdPtrA_eq p s
  | ldPairNN p nn => exact opLdPairNN_eq p nn s
  | ldSPNN nn => exact opLdSPNN_eq nn s
  | ldSPHL => exact opLdSPHL_eq s
  | logicR op r => exact opLogicR_eq op r s
  | logicHL op => exact opLogicHL_eq op s
  | logicN op n => exact opLogicN_eq op n s
  | incR r => exact opIncR_eq r s
  | cpl => exact opCpl_eq s
  | ccf => exact opCcf_eq s
  | scf => exact opScf_eq s
  | jp nn => exact opJp_eq nn s
  | bit b r => exact opBit_eq b r s

/-- When a form raises, and with what: only JR and CALL can (R213). -/
theorem Form.raises_eq_some {f : Form} {s : State} {a : Int} : Form.raises s f = some a ↔
    (∃ cc e, f = .jr cc e ∧ s.holds cc = true ∧ (s.jrTarget e < 0 ∨ 0xFFFF < s.jrTarget e) ∧ a = s.jrTarget e) ∨
      ∃ nn, f = .call nn ∧ s.sp.toNat < 2 ∧ a = (s.sp.toNat : Int) - 2 := by
  constructor
  · intro h
    cases f with
    | jr cc e =>
      rw [Form.raises] at h
      split at h
      · rename_i hc; cases h; exact .inl ⟨cc, e, rfl, hc.1, hc.2, rfl⟩
      · cases h
    | call nn =>
      rw [Form.raises] at h
      split at h
      · cases h
      · cases h; exact .inr ⟨nn, rfl, by omega, rfl⟩
    | _ => cases h
  · rintro (⟨cc, e, rfl, hh, ht, rfl⟩ | ⟨nn, rfl, hs, rfl⟩)
    · rw [Form.raises, if_pos ⟨hh, ht⟩]
    · rw [Form.raises, if_neg (by omega)]

/-- An instruction that answers a next state fits, raises nothing, and answers its form's result. -/
theorem exec_next {i : Instr} {s t : State} (h : exec i s = .next t) :
    s.fits i.form.length ∧ Form.raises s i.form = none ∧ t = Form.result s i.form := by
  rw [exec_cases] at h
  by_cases hf : s.pc.toNat + i.form.length ≤ 0xFFFF
  · rw [if_pos hf] at h
    cases hr : Form.raises s i.form with
    | none => rw [hr] at h; cases h; exact ⟨hf, rfl, rfl⟩
    | some a => rw [hr] at h; cases h
  · rw [if_neg hf] at h; cases h

/-- An instruction that does not fit gives the end-of-memory fault. -/
theorem exec_over {i : Instr} {s : State} (h : ¬s.fits i.form.length) : exec i s = endOfMemory := by
  rw [exec_cases, if_neg h]

end Sys2Proof.Machine
end

