-- ==== Sys2Proof/Laws/Fetch.lean ====
section
/-! SUPPORT. Everything a fetch and a step can answer, said once. -/
namespace Sys2Proof.Machine

theorem fetchOperands_eq (row : Row) (s : State) :
    fetchOperands row s =
      if s.pc.toNat + (row.length - 1) ≤ 0xFFFF then
        .ok (row.build (s.mem.byteAt s.pc.toNat) (s.mem.byteAt (s.pc.toNat + 1)))
      else .error (.outOfRangeAddress 0x10000) := by
  have hlt := s.pc.isLt
  cases row with
  | op i => rw [if_pos (by simp only [Row.length]; omega)]; rfl
  | imm8 f =>
    rw [fetchOperands, State.fetch8_eq, show (Row.imm8 f).length - 1 = 1 from rfl]
    by_cases h : s.pc.toNat + 1 ≤ 0xFFFF
    · rw [if_pos h, if_pos h]; rfl
    · rw [if_neg h, if_neg h]; rfl
  | disp f =>
    rw [fetchOperands, State.fetch8_eq, show (Row.disp f).length - 1 = 1 from rfl]
    by_cases h : s.pc.toNat + 1 ≤ 0xFFFF
    · rw [if_pos h, if_pos h]; rfl
    · rw [if_neg h, if_neg h]; rfl
  | imm16 f =>
    rw [fetchOperands, State.fetch16_eq, show (Row.imm16 f).length - 1 = 2 from rfl]
    by_cases h : s.pc.toNat + 2 ≤ 0xFFFF
    · rw [if_pos h, if_pos h]; rfl
    · rw [if_neg h, if_neg h]; rfl

/-- The end-of-memory fault of a fetch. -/
def topFault : Fetched := .fault (.outOfRangeAddress 0x10000)

/-- Everything the fetch at pc can find (R92, R216). -/
theorem fetchInstr_eq (s : State) :
    fetchInstr s =
      if s.pc.toNat + 1 ≤ 0xFFFF then
        if s.mem.read8 s.pc = Config.escape then
          if s.pc.toNat + 2 ≤ 0xFFFF then
            (match extendedTable (s.mem.byteAt (s.pc.toNat + 1)) with
              | none => .undefined [Config.escape, s.mem.byteAt (s.pc.toNat + 1)] { s with pc := s.pc + 2 }
              | some i => .instr i)
          else topFault
        else
          match baseTable (s.mem.read8 s.pc) with
          | none => .undefined [s.mem.read8 s.pc] { s with pc := s.pc + 1 }
          | some row =>
            if s.pc.toNat + row.length ≤ 0xFFFF then
              .instr (row.build (s.mem.byteAt (s.pc.toNat + 1)) (s.mem.byteAt (s.pc.toNat + 2)))
            else topFault
      else topFault := by
  unfold fetchInstr
  rw [State.fetch8_eq]
  by_cases h1 : s.pc.toNat + 1 ≤ 0xFFFF
  · rw [if_pos h1, if_pos h1]
    have hpc : (s.pc + 1).toNat = s.pc.toNat + 1 := toNat_add_ofNat (n := 1) h1
    dsimp only
    by_cases he : s.mem.read8 s.pc = Config.escape
    · rw [if_pos he, if_pos he, State.fetch8_eq]
      dsimp only
      rw [hpc, Nat.add_assoc]
      by_cases h2 : s.pc.toNat + (1 + 1) ≤ 0xFFFF
      · rw [if_pos h2, if_pos h2]
        have hb : s.mem.read8 (s.pc + 1) = s.mem.byteAt (s.pc.toNat + 1) := by rw [Memory.read8, hpc]
        dsimp only
        rw [hb, he]
        cases extendedTable (s.mem.byteAt (s.pc.toNat + 1)) with
        | none =>
          dsimp only
          rw [show s.pc + 1 + 1 = s.pc + 2 by rw [BitVec.add_assoc]; rfl]
        | some i => rfl
      · rw [if_neg h2, if_neg h2]; rfl
    · rw [if_neg he, if_neg he]
      cases baseTable (s.mem.read8 s.pc) with
      | none => rfl
      | some row =>
        dsimp only
        rw [fetchOperands_eq]
        dsimp only
        rw [hpc]
        have hl : s.pc.toNat + 1 + (row.length - 1) = s.pc.toNat + row.length := by
          cases row <;> rfl
        rw [hl]
        by_cases h3 : s.pc.toNat + row.length ≤ 0xFFFF
        · rw [if_pos h3, if_pos h3]
        · rw [if_neg h3, if_neg h3]; rfl
  · rw [if_neg h1, if_neg h1]; rfl

/-- A next state of a step comes from an instruction, or from bytes without a handler. -/
theorem step_next {s t : State} (h : step s = .next t) :
    (∃ i, fetchInstr s = .instr i ∧ exec i s = .next t) ∨
    (s.fits 1 ∧ s.mem.read8 s.pc ≠ Config.escape ∧ baseTable (s.mem.read8 s.pc) = none ∧
      t = { s with pc := s.pc + 1, returned := some (.undefinedOpcode [s.mem.read8 s.pc] s.pc) }) ∨
    (s.fits 2 ∧ s.mem.read8 s.pc = Config.escape ∧ extendedTable (s.mem.byteAt (s.pc.toNat + 1)) = none ∧
      t = { s with
        pc := s.pc + 2
        returned := some (.undefinedOpcode [Config.escape, s.mem.byteAt (s.pc.toNat + 1)] s.pc) }) := by
  unfold step at h
  cases hf : fetchInstr s with
  | instr i => rw [hf] at h; exact .inl ⟨i, rfl, h⟩
  | fault e => rw [hf] at h; cases h
  | undefined bytes after =>
    rw [hf] at h
    cases h
    rw [fetchInstr_eq] at hf
    right
    split at hf
    · next h1 =>
      split at hf
      · next he =>
        split at hf
        · next h2 =>
          split at hf
          · next hx => cases hf; exact .inr ⟨h2, he, hx, rfl⟩
          · cases hf
        · cases hf
      · next he =>
        split at hf
        · next hx => cases hf; exact .inl ⟨h1, he, hx, rfl⟩
        · split at hf <;> cases hf
    · cases hf

/-- A fault of a step is an instruction's, or the fetch's at the top of memory. -/
theorem step_fault {s : State} {e : Fault} (h : step s = .fault e) :
    (∃ i, fetchInstr s = .instr i ∧ exec i s = .fault e) ∨ e = .outOfRangeAddress 0x10000 := by
  unfold step at h
  cases hf : fetchInstr s with
  | instr i => rw [hf] at h; exact .inl ⟨i, rfl, h⟩
  | undefined bytes after => rw [hf] at h; cases h
  | fault e' =>
    rw [hf] at h
    cases h
    rw [fetchInstr_eq] at hf
    right
    split at hf
    · split at hf
      · split at hf
        · split at hf <;> cases hf
        · cases hf; rfl
      · split at hf
        · cases hf
        · split at hf
          · cases hf
          · cases hf; rfl
    · cases hf; rfl

/-- No instruction refuses, so no step does. -/
theorem exec_ne_refused (i : Instr) (s : State) (r : Refusal) : exec i s ≠ .refused r := by
  rw [exec_cases]
  by_cases hf : s.pc.toNat + i.form.length ≤ 0xFFFF
  · rw [if_pos hf]; cases Form.raises s i.form <;> exact fun h => nomatch h
  · rw [if_neg hf]; exact fun h => nomatch h

theorem step_ne_refused (s : State) (r : Refusal) : step s ≠ .refused r := by
  unfold step
  cases fetchInstr s with
  | instr i => exact exec_ne_refused i s r
  | undefined bytes after => exact fun h => nomatch h
  | fault e => exact fun h => nomatch h

/-- What the window holds, by how far pc is from the top of memory. -/
theorem State.window_eq (s : State) :
    s.window =
      s.mem.read8 s.pc ::
        (if s.pc.toNat + 1 < 65536 then
          s.mem.byteAt (s.pc.toNat + 1) ::
            (if s.pc.toNat + 2 < 65536 then [s.mem.byteAt (s.pc.toNat + 2)] else [])
        else []) := by
  simp only [State.window, Memory.bytesFrom, if_pos s.pc.isLt, Config.memSize, Memory.read8, Nat.add_assoc]

end Sys2Proof.Machine
end

