-- ==== Sys2Proof/Laws/Driver.lean ====
section
/-! SUPPORT. What one turn of the driver does, one equation for each way its step ends, and what a run of `Cycles` steps
is made of (R227). -/
namespace Sys2Proof.Machine

/-- A next state returns `Cycles(n)`, or UndefinedOpcode at the pc of the step (R16). -/
theorem step_returned {s t : State} (h : step s = .next t) :
    (∃ n, t.returned = some (.cycles n)) ∨ ∃ bytes, t.returned = some (.undefinedOpcode bytes s.pc) := by
  rcases step_next h with ⟨i, -, hx⟩ | ⟨-, -, -, rfl⟩ | ⟨-, -, -, rfl⟩
  · obtain ⟨-, -, rfl⟩ := exec_next hx
    refine .inl ?_
    cases i.form with
    | jr cc e => rw [Form.result]; split <;> exact ⟨_, rfl⟩
    | _ => exact ⟨_, rfl⟩
  · exact .inr ⟨_, rfl⟩
  · exact .inr ⟨_, rfl⟩

/-- The cycle budget stops the driver before a step exactly when what was spent has reached it. -/
theorem limit_any {limit : Option Nat} {spent : Nat} :
    limit.any (fun n => decide (n ≤ spent)) = true ↔ ∃ n, limit = some n ∧ n ≤ spent := by
  cases limit <;> simp

theorem limit_open {limit : Option Nat} {spent : Nat} :
    limit.any (fun n => decide (n ≤ spent)) = false ↔ ∀ n, limit = some n → spent < n := by
  cases limit <;> simp

theorem drive_limit {limit : Option Nat} {spent n : Nat} (steps : Nat) (s : State) (h : limit = some n)
    (hn : n ≤ spent) : drive limit steps spent s = .budget s spent := by
  cases steps with
  | zero => rfl
  | succ k => rw [drive, if_pos (limit_any.mpr ⟨n, h, hn⟩)]

theorem drive_fault {limit : Option Nat} {spent : Nat} {s : State} {e : Fault} (steps : Nat)
    (h : ∀ n, limit = some n → spent < n) (hs : step s = .fault e) : drive limit (steps + 1) spent s = .fault e := by
  rw [drive, limit_open.mpr h, hs]; rfl

theorem drive_cycles {limit : Option Nat} {spent n : Nat} {s t : State} (steps : Nat)
    (h : ∀ n, limit = some n → spent < n) (hs : step s = .next t) (hn : t.returned = some (.cycles n)) :
    drive limit (steps + 1) spent s = drive limit steps (spent + n) t := by
  rw [drive, limit_open.mpr h, hs]; dsimp only; rw [hn]; rfl

theorem drive_undefined {limit : Option Nat} {spent : Nat} {s t : State} {bytes : List Byte} {start : Word}
    (steps : Nat) (h : ∀ n, limit = some n → spent < n) (hs : step s = .next t)
    (hn : t.returned = some (.undefinedOpcode bytes start)) :
    drive limit (steps + 1) spent s = .undefinedOpcode bytes start t spent := by
  rw [drive, limit_open.mpr h, hs]; dsimp only; rw [hn]; rfl

/-- Every run from a state with steps left ends before its step, or is one of the three ways the step ends. -/
theorem drive_cases (limit : Option Nat) (steps spent : Nat) (s : State) :
    ((∃ n, limit = some n ∧ n ≤ spent) ∧ drive limit (steps + 1) spent s = .budget s spent) ∨
    (∀ n, limit = some n → spent < n) ∧
      ((∃ e, step s = .fault e ∧ drive limit (steps + 1) spent s = .fault e) ∨
        (∃ t n, step s = .next t ∧ t.returned = some (.cycles n) ∧
          drive limit (steps + 1) spent s = drive limit steps (spent + n) t) ∨
        ∃ t bytes, step s = .next t ∧ t.returned = some (.undefinedOpcode bytes s.pc) ∧
          drive limit (steps + 1) spent s = .undefinedOpcode bytes s.pc t spent) := by
  cases hb : limit.any (fun n => decide (n ≤ spent)) with
  | true =>
    have hl := limit_any.mp hb
    obtain ⟨n, h, hn⟩ := hl
    exact .inl ⟨⟨n, h, hn⟩, drive_limit _ _ h hn⟩
  | false =>
    have hl := limit_open.mp hb
    refine .inr ⟨hl, ?_⟩
    cases hs : step s with
    | refused r => exact absurd hs (step_ne_refused s r)
    | fault e => exact .inl ⟨e, rfl, drive_fault steps hl hs⟩
    | next t =>
      rcases step_returned hs with ⟨n, hn⟩ | ⟨bytes, hn⟩
      · exact .inr (.inl ⟨t, n, rfl, hn, drive_cycles steps hl hs hn⟩)
      · exact .inr (.inr ⟨t, bytes, rfl, hn, drive_undefined steps hl hs hn⟩)

/-- A run of `Cycles` steps is empty, or its first step and the rest. -/
theorem cycleRun_cases {s u : State} {counts : List Nat} (h : CycleRun s counts u) :
    (counts = [] ∧ u = s) ∨
      ∃ t n rest, counts = n :: rest ∧ step s = .next t ∧ t.returned = some (.cycles n) ∧ CycleRun t rest u := by
  cases h with
  | here => exact .inl ⟨rfl, rfl⟩
  | step hs hn rest => exact .inr ⟨_, _, _, rfl, hs, hn, rest⟩

end Sys2Proof.Machine
end

