-- ==== Sys2Proof/Laws/PerInstr.lean ====
section
/-! SUPPORT. The per-instruction family EncodedLength: the encoding of every constructor has the length of its form
(R90, R91). -/
namespace Sys2Proof.Laws

/-- The encoding of an instruction is as long as its format says. -/
def EncodedLength.Statement (i : Instr) : Prop := (encode i).length = i.form.length

theorem EncodedLength.nop : EncodedLength.Statement (.nop) := by rfl
theorem EncodedLength.ldBCImm16 (nn : Word) : EncodedLength.Statement (.ldBCImm16 nn) := by rfl
theorem EncodedLength.ldAtBCA : EncodedLength.Statement (.ldAtBCA) := by rfl
theorem EncodedLength.incB : EncodedLength.Statement (.incB) := by rfl
theorem EncodedLength.ldBImm (n : Byte) : EncodedLength.Statement (.ldBImm n) := by rfl
theorem EncodedLength.ldAAtBC : EncodedLength.Statement (.ldAAtBC) := by rfl
theorem EncodedLength.incC : EncodedLength.Statement (.incC) := by rfl
theorem EncodedLength.ldCImm (n : Byte) : EncodedLength.Statement (.ldCImm n) := by rfl
theorem EncodedLength.ldDEImm16 (nn : Word) : EncodedLength.Statement (.ldDEImm16 nn) := by rfl
theorem EncodedLength.ldAtDEA : EncodedLength.Statement (.ldAtDEA) := by rfl
theorem EncodedLength.incD : EncodedLength.Statement (.incD) := by rfl
theorem EncodedLength.ldDImm (n : Byte) : EncodedLength.Statement (.ldDImm n) := by rfl
theorem EncodedLength.ldAAtDE : EncodedLength.Statement (.ldAAtDE) := by rfl
theorem EncodedLength.incE : EncodedLength.Statement (.incE) := by rfl
theorem EncodedLength.ldEImm (n : Byte) : EncodedLength.Statement (.ldEImm n) := by rfl
theorem EncodedLength.jrNZ (e : Int) : EncodedLength.Statement (.jrNZ e) := by rfl
theorem EncodedLength.ldHLImm16 (nn : Word) : EncodedLength.Statement (.ldHLImm16 nn) := by rfl
theorem EncodedLength.incH : EncodedLength.Statement (.incH) := by rfl
theorem EncodedLength.ldHImm (n : Byte) : EncodedLength.Statement (.ldHImm n) := by rfl
theorem EncodedLength.jrZ (e : Int) : EncodedLength.Statement (.jrZ e) := by rfl
theorem EncodedLength.incL : EncodedLength.Statement (.incL) := by rfl
theorem EncodedLength.ldLImm (n : Byte) : EncodedLength.Statement (.ldLImm n) := by rfl
theorem EncodedLength.cpl : EncodedLength.Statement (.cpl) := by rfl
theorem EncodedLength.jrNC (e : Int) : EncodedLength.Statement (.jrNC e) := by rfl
theorem EncodedLength.ldSPImm16 (nn : Word) : EncodedLength.Statement (.ldSPImm16 nn) := by rfl
theorem EncodedLength.scf : EncodedLength.Statement (.scf) := by rfl
theorem EncodedLength.jrC (e : Int) : EncodedLength.Statement (.jrC e) := by rfl
theorem EncodedLength.incA : EncodedLength.Statement (.incA) := by rfl
theorem EncodedLength.ldAImm (n : Byte) : EncodedLength.Statement (.ldAImm n) := by rfl
theorem EncodedLength.ccf : EncodedLength.Statement (.ccf) := by rfl
theorem EncodedLength.ldBB : EncodedLength.Statement (.ldBB) := by rfl
theorem EncodedLength.ldBC : EncodedLength.Statement (.ldBC) := by rfl
theorem EncodedLength.ldBD : EncodedLength.Statement (.ldBD) := by rfl
theorem EncodedLength.ldBE : EncodedLength.Statement (.ldBE) := by rfl
theorem EncodedLength.ldBH : EncodedLength.Statement (.ldBH) := by rfl
theorem EncodedLength.ldBL : EncodedLength.Statement (.ldBL) := by rfl
theorem EncodedLength.ldBAtHL : EncodedLength.Statement (.ldBAtHL) := by rfl
theorem EncodedLength.ldBA : EncodedLength.Statement (.ldBA) := by rfl
theorem EncodedLength.ldCB : EncodedLength.Statement (.ldCB) := by rfl
theorem EncodedLength.ldCC : EncodedLength.Statement (.ldCC) := by rfl
theorem EncodedLength.ldCD : EncodedLength.Statement (.ldCD) := by rfl
theorem EncodedLength.ldCE : EncodedLength.Statement (.ldCE) := by rfl
theorem EncodedLength.ldCH : EncodedLength.Statement (.ldCH) := by rfl
theorem EncodedLength.ldCL : EncodedLength.Statement (.ldCL) := by rfl
theorem EncodedLength.ldCAtHL : EncodedLength.Statement (.ldCAtHL) := by rfl
theorem EncodedLength.ldCA : EncodedLength.Statement (.ldCA) := by rfl
theorem EncodedLength.ldDB : EncodedLength.Statement (.ldDB) := by rfl
theorem EncodedLength.ldDC : EncodedLength.Statement (.ldDC) := by rfl
theorem EncodedLength.ldDD : EncodedLength.Statement (.ldDD) := by rfl
theorem EncodedLength.ldDE : EncodedLength.Statement (.ldDE) := by rfl
theorem EncodedLength.ldDH : EncodedLength.Statement (.ldDH) := by rfl
theorem EncodedLength.ldDL : EncodedLength.Statement (.ldDL) := by rfl
theorem EncodedLength.ldDAtHL : EncodedLength.Statement (.ldDAtHL) := by rfl
theorem EncodedLength.ldDA : EncodedLength.Statement (.ldDA) := by rfl
theorem EncodedLength.ldEB : EncodedLength.Statement (.ldEB) := by rfl
theorem EncodedLength.ldEC : EncodedLength.Statement (.ldEC) := by rfl
theorem EncodedLength.ldED : EncodedLength.Statement (.ldED) := by rfl
theorem EncodedLength.ldEE : EncodedLength.Statement (.ldEE) := by rfl
theorem EncodedLength.ldEH : EncodedLength.Statement (.ldEH) := by rfl
theorem EncodedLength.ldEL : EncodedLength.Statement (.ldEL) := by rfl
theorem EncodedLength.ldEAtHL : EncodedLength.Statement (.ldEAtHL) := by rfl
theorem EncodedLength.ldEA : EncodedLength.Statement (.ldEA) := by rfl
theorem EncodedLength.ldHB : EncodedLength.Statement (.ldHB) := by rfl
theorem EncodedLength.ldHC : EncodedLength.Statement (.ldHC) := by rfl
theorem EncodedLength.ldHD : EncodedLength.Statement (.ldHD) := by rfl
theorem EncodedLength.ldHE : EncodedLength.Statement (.ldHE) := by rfl
theorem EncodedLength.ldHH : EncodedLength.Statement (.ldHH) := by rfl
theorem EncodedLength.ldHL : EncodedLength.Statement (.ldHL) := by rfl
theorem EncodedLength.ldHAtHL : EncodedLength.Statement (.ldHAtHL) := by rfl
theorem EncodedLength.ldHA : EncodedLength.Statement (.ldHA) := by rfl
theorem EncodedLength.ldLB : EncodedLength.Statement (.ldLB) := by rfl
theorem EncodedLength.ldLC : EncodedLength.Statement (.ldLC) := by rfl
theorem EncodedLength.ldLD : EncodedLength.Statement (.ldLD) := by rfl
theorem EncodedLength.ldLE : EncodedLength.Statement (.ldLE) := by rfl
theorem EncodedLength.ldLH : EncodedLength.Statement (.ldLH) := by rfl
theorem EncodedLength.ldLL : EncodedLength.Statement (.ldLL) := by rfl
theorem EncodedLength.ldLAtHL : EncodedLength.Statement (.ldLAtHL) := by rfl
theorem EncodedLength.ldLA : EncodedLength.Statement (.ldLA) := by rfl
theorem EncodedLength.ldAtHLB : EncodedLength.Statement (.ldAtHLB) := by rfl
theorem EncodedLength.ldAtHLC : EncodedLength.Statement (.ldAtHLC) := by rfl
theorem EncodedLength.ldAtHLD : EncodedLength.Statement (.ldAtHLD) := by rfl
theorem EncodedLength.ldAtHLE : EncodedLength.Statement (.ldAtHLE) := by rfl
theorem EncodedLength.ldAtHLH : EncodedLength.Statement (.ldAtHLH) := by rfl
theorem EncodedLength.ldAtHLL : EncodedLength.Statement (.ldAtHLL) := by rfl
theorem EncodedLength.ldAtHLA : EncodedLength.Statement (.ldAtHLA) := by rfl
theorem EncodedLength.ldAB : EncodedLength.Statement (.ldAB) := by rfl
theorem EncodedLength.ldAC : EncodedLength.Statement (.ldAC) := by rfl
theorem EncodedLength.ldAD : EncodedLength.Statement (.ldAD) := by rfl
theorem EncodedLength.ldAE : EncodedLength.Statement (.ldAE) := by rfl
theorem EncodedLength.ldAH : EncodedLength.Statement (.ldAH) := by rfl
theorem EncodedLength.ldAL : EncodedLength.Statement (.ldAL) := by rfl
theorem EncodedLength.ldAAtHL : EncodedLength.Statement (.ldAAtHL) := by rfl
theorem EncodedLength.ldAA : EncodedLength.Statement (.ldAA) := by rfl
theorem EncodedLength.andB : EncodedLength.Statement (.andB) := by rfl
theorem EncodedLength.andC : EncodedLength.Statement (.andC) := by rfl
theorem EncodedLength.andD : EncodedLength.Statement (.andD) := by rfl
theorem EncodedLength.andE : EncodedLength.Statement (.andE) := by rfl
theorem EncodedLength.andH : EncodedLength.Statement (.andH) := by rfl
theorem EncodedLength.andL : EncodedLength.Statement (.andL) := by rfl
theorem EncodedLength.andAtHL : EncodedLength.Statement (.andAtHL) := by rfl
theorem EncodedLength.andA : EncodedLength.Statement (.andA) := by rfl
theorem EncodedLength.xorB : EncodedLength.Statement (.xorB) := by rfl
theorem EncodedLength.xorC : EncodedLength.Statement (.xorC) := by rfl
theorem EncodedLength.xorD : EncodedLength.Statement (.xorD) := by rfl
theorem EncodedLength.xorE : EncodedLength.Statement (.xorE) := by rfl
theorem EncodedLength.xorH : EncodedLength.Statement (.xorH) := by rfl
theorem EncodedLength.xorL : EncodedLength.Statement (.xorL) := by rfl
theorem EncodedLength.xorAtHL : EncodedLength.Statement (.xorAtHL) := by rfl
theorem EncodedLength.xorA : EncodedLength.Statement (.xorA) := by rfl
theorem EncodedLength.orB : EncodedLength.Statement (.orB) := by rfl
theorem EncodedLength.orC : EncodedLength.Statement (.orC) := by rfl
theorem EncodedLength.orD : EncodedLength.Statement (.orD) := by rfl
theorem EncodedLength.orE : EncodedLength.Statement (.orE) := by rfl
theorem EncodedLength.orH : EncodedLength.Statement (.orH) := by rfl
theorem EncodedLength.orL : EncodedLength.Statement (.orL) := by rfl
theorem EncodedLength.orAtHL : EncodedLength.Statement (.orAtHL) := by rfl
theorem EncodedLength.orA : EncodedLength.Statement (.orA) := by rfl
theorem EncodedLength.jp (nn : Word) : EncodedLength.Statement (.jp nn) := by rfl
theorem EncodedLength.call (nn : Word) : EncodedLength.Statement (.call nn) := by rfl
theorem EncodedLength.andImm (n : Byte) : EncodedLength.Statement (.andImm n) := by rfl
theorem EncodedLength.xorImm (n : Byte) : EncodedLength.Statement (.xorImm n) := by rfl
theorem EncodedLength.orImm (n : Byte) : EncodedLength.Statement (.orImm n) := by rfl
theorem EncodedLength.ldSPHL : EncodedLength.Statement (.ldSPHL) := by rfl
theorem EncodedLength.bit0B : EncodedLength.Statement (.bit0B) := by rfl
theorem EncodedLength.bit0C : EncodedLength.Statement (.bit0C) := by rfl
theorem EncodedLength.bit0D : EncodedLength.Statement (.bit0D) := by rfl
theorem EncodedLength.bit0E : EncodedLength.Statement (.bit0E) := by rfl
theorem EncodedLength.bit0H : EncodedLength.Statement (.bit0H) := by rfl
theorem EncodedLength.bit0L : EncodedLength.Statement (.bit0L) := by rfl
theorem EncodedLength.bit0A : EncodedLength.Statement (.bit0A) := by rfl
theorem EncodedLength.bit1B : EncodedLength.Statement (.bit1B) := by rfl
theorem EncodedLength.bit1C : EncodedLength.Statement (.bit1C) := by rfl
theorem EncodedLength.bit1D : EncodedLength.Statement (.bit1D) := by rfl
theorem EncodedLength.bit1E : EncodedLength.Statement (.bit1E) := by rfl
theorem EncodedLength.bit1H : EncodedLength.Statement (.bit1H) := by rfl
theorem EncodedLength.bit1L : EncodedLength.Statement (.bit1L) := by rfl
theorem EncodedLength.bit1A : EncodedLength.Statement (.bit1A) := by rfl
theorem EncodedLength.bit2B : EncodedLength.Statement (.bit2B) := by rfl
theorem EncodedLength.bit2C : EncodedLength.Statement (.bit2C) := by rfl
theorem EncodedLength.bit2D : EncodedLength.Statement (.bit2D) := by rfl
theorem EncodedLength.bit2E : EncodedLength.Statement (.bit2E) := by rfl
theorem EncodedLength.bit2H : EncodedLength.Statement (.bit2H) := by rfl
theorem EncodedLength.bit2L : EncodedLength.Statement (.bit2L) := by rfl
theorem EncodedLength.bit2A : EncodedLength.Statement (.bit2A) := by rfl
theorem EncodedLength.bit3B : EncodedLength.Statement (.bit3B) := by rfl
theorem EncodedLength.bit3C : EncodedLength.Statement (.bit3C) := by rfl
theorem EncodedLength.bit3D : EncodedLength.Statement (.bit3D) := by rfl
theorem EncodedLength.bit3E : EncodedLength.Statement (.bit3E) := by rfl
theorem EncodedLength.bit3H : EncodedLength.Statement (.bit3H) := by rfl
theorem EncodedLength.bit3L : EncodedLength.Statement (.bit3L) := by rfl
theorem EncodedLength.bit3A : EncodedLength.Statement (.bit3A) := by rfl
theorem EncodedLength.bit4B : EncodedLength.Statement (.bit4B) := by rfl
theorem EncodedLength.bit4C : EncodedLength.Statement (.bit4C) := by rfl
theorem EncodedLength.bit4D : EncodedLength.Statement (.bit4D) := by rfl
theorem EncodedLength.bit4E : EncodedLength.Statement (.bit4E) := by rfl
theorem EncodedLength.bit4H : EncodedLength.Statement (.bit4H) := by rfl
theorem EncodedLength.bit4L : EncodedLength.Statement (.bit4L) := by rfl
theorem EncodedLength.bit4A : EncodedLength.Statement (.bit4A) := by rfl
theorem EncodedLength.bit5B : EncodedLength.Statement (.bit5B) := by rfl
theorem EncodedLength.bit5C : EncodedLength.Statement (.bit5C) := by rfl
theorem EncodedLength.bit5D : EncodedLength.Statement (.bit5D) := by rfl
theorem EncodedLength.bit5E : EncodedLength.Statement (.bit5E) := by rfl
theorem EncodedLength.bit5H : EncodedLength.Statement (.bit5H) := by rfl
theorem EncodedLength.bit5L : EncodedLength.Statement (.bit5L) := by rfl
theorem EncodedLength.bit5A : EncodedLength.Statement (.bit5A) := by rfl
theorem EncodedLength.bit6B : EncodedLength.Statement (.bit6B) := by rfl
theorem EncodedLength.bit6C : EncodedLength.Statement (.bit6C) := by rfl
theorem EncodedLength.bit6D : EncodedLength.Statement (.bit6D) := by rfl
theorem EncodedLength.bit6E : EncodedLength.Statement (.bit6E) := by rfl
theorem EncodedLength.bit6H : EncodedLength.Statement (.bit6H) := by rfl
theorem EncodedLength.bit6L : EncodedLength.Statement (.bit6L) := by rfl
theorem EncodedLength.bit6A : EncodedLength.Statement (.bit6A) := by rfl
theorem EncodedLength.bit7B : EncodedLength.Statement (.bit7B) := by rfl
theorem EncodedLength.bit7C : EncodedLength.Statement (.bit7C) := by rfl
theorem EncodedLength.bit7D : EncodedLength.Statement (.bit7D) := by rfl
theorem EncodedLength.bit7E : EncodedLength.Statement (.bit7E) := by rfl
theorem EncodedLength.bit7H : EncodedLength.Statement (.bit7H) := by rfl
theorem EncodedLength.bit7L : EncodedLength.Statement (.bit7L) := by rfl
theorem EncodedLength.bit7A : EncodedLength.Statement (.bit7A) := by rfl

end Sys2Proof.Laws
end

