-- ==== Sys2Proof/Tests/Slice0.lean ====
section
/-! SUPPORT. The model's own tests: decoding, well-formedness, one step at a time with the results that
spec/95_test_vectors.md gives, and a witness for every statement that has hypotheses. -/
namespace Sys2Proof.Tests
open Sys2Proof Sys2Proof.Machine

/-! ### Helpers -/

/-- The reset state with a pc and with bytes from it on. -/
def placed (pc : Word) (bytes : List Byte) : State :=
  { State.reset with pc := pc, mem := Memory.setBytes [] pc.toNat bytes }

/-- The reset state with bytes at RESET_PC. -/
def boot (bytes : List Byte) : State := placed 0x0100 bytes

/-- The bytes decode to this instruction and to nothing more. -/
def reads (bytes : List Byte) (i : Instr) : Bool :=
  match decode bytes with
  | .ok (j, rest) => decide (j = i) && rest.isEmpty
  | .error _ => false

/-- A result is this next state. -/
def isNext (r : Res) (t : State) : Bool :=
  match r with
  | .next u => decide (u = t)
  | .fault _ => false
  | .refused _ => false

/-- A result is the fault OutOfRangeAddress(a). -/
def isFault (r : Res) (a : Int) : Bool :=
  match r with
  | .fault (.outOfRangeAddress v) => decide (v = a)
  | .next _ => false
  | .refused _ => false

/-- A step from a state gives the state with this update, and Cycles(n). -/
def oneStep (s : State) (n : Nat) (update : State → State) : Bool :=
  isNext (step s) { update s with returned := some (.cycles n) }

/-- A step from a state gives UndefinedOpcode(bytes, pc), pc moved past the bytes, nothing else changed. -/
def undefinedStep (s : State) (bytes : List Byte) : Bool :=
  isNext (step s)
    { s with pc := s.pc + BitVec.ofNat 16 bytes.length, returned := some (.undefinedOpcode bytes s.pc) }

/-! ### Decoding: every row of the opcode table, its byte written out from the "Encoding" line of its rule. Operand bytes are
0x34 0x12 (a word), 0x34 (a byte), 0xFE (a displacement) -/

theorem test_decode_flag_and_nop :
    (reads [0b00000000] .nop &&
      reads [0b00101111] .cpl &&
      reads [0b00110111] .scf &&
      reads [0b00111111] .ccf) = true := by decide

theorem test_decode_ld_other :
    (reads [0b00000001, 0x34, 0x12] (.ldBCImm16 0x1234) &&
      reads [0b00000010] .ldAtBCA &&
      reads [0b00001010] .ldAAtBC &&
      reads [0b00010001, 0x34, 0x12] (.ldDEImm16 0x1234) &&
      reads [0b00010010] .ldAtDEA &&
      reads [0b00011010] .ldAAtDE &&
      reads [0b00100001, 0x34, 0x12] (.ldHLImm16 0x1234) &&
      reads [0b00110001, 0x34, 0x12] (.ldSPImm16 0x1234) &&
      reads [0b11111001] .ldSPHL) = true := by decide

theorem test_decode_inc :
    (reads [0b00000100] .incB &&
      reads [0b00001100] .incC &&
      reads [0b00010100] .incD &&
      reads [0b00011100] .incE &&
      reads [0b00100100] .incH &&
      reads [0b00101100] .incL &&
      reads [0b00111100] .incA) = true := by decide

theorem test_decode_ld_imm :
    (reads [0b00000110, 0x34] (.ldBImm 0x34) &&
      reads [0b00001110, 0x34] (.ldCImm 0x34) &&
      reads [0b00010110, 0x34] (.ldDImm 0x34) &&
      reads [0b00011110, 0x34] (.ldEImm 0x34) &&
      reads [0b00100110, 0x34] (.ldHImm 0x34) &&
      reads [0b00101110, 0x34] (.ldLImm 0x34) &&
      reads [0b00111110, 0x34] (.ldAImm 0x34)) = true := by decide

theorem test_decode_control :
    (reads [0b00100000, 0xFE] (.jrNZ (-2)) &&
      reads [0b00101000, 0xFE] (.jrZ (-2)) &&
      reads [0b00110000, 0xFE] (.jrNC (-2)) &&
      reads [0b00111000, 0xFE] (.jrC (-2)) &&
      reads [0b11000011, 0x34, 0x12] (.jp 0x1234) &&
      reads [0b11001101, 0x34, 0x12] (.call 0x1234)) = true := by decide

theorem test_decode_ld_b_reg :
    (reads [0b01000000] .ldBB &&
      reads [0b01000001] .ldBC &&
      reads [0b01000010] .ldBD &&
      reads [0b01000011] .ldBE &&
      reads [0b01000100] .ldBH &&
      reads [0b01000101] .ldBL &&
      reads [0b01000111] .ldBA) = true := by decide

theorem test_decode_ld_from_hl :
    (reads [0b01000110] .ldBAtHL &&
      reads [0b01001110] .ldCAtHL &&
      reads [0b01010110] .ldDAtHL &&
      reads [0b01011110] .ldEAtHL &&
      reads [0b01100110] .ldHAtHL &&
      reads [0b01101110] .ldLAtHL &&
      reads [0b01111110] .ldAAtHL) = true := by decide

theorem test_decode_ld_c_reg :
    (reads [0b01001000] .ldCB &&
      reads [0b01001001] .ldCC &&
      reads [0b01001010] .ldCD &&
      reads [0b01001011] .ldCE &&
      reads [0b01001100] .ldCH &&
      reads [0b01001101] .ldCL &&
      reads [0b01001111] .ldCA) = true := by decide

theorem test_decode_ld_d_reg :
    (reads [0b01010000] .ldDB &&
      reads [0b01010001] .ldDC &&
      reads [0b01010010] .ldDD &&
      reads [0b01010011] .ldDE &&
      reads [0b01010100] .ldDH &&
      reads [0b01010101] .ldDL &&
      reads [0b01010111] .ldDA) = true := by decide

theorem test_decode_ld_e_reg :
    (reads [0b01011000] .ldEB &&
      reads [0b01011001] .ldEC &&
      reads [0b01011010] .ldED &&
      reads [0b01011011] .ldEE &&
      reads [0b01011100] .ldEH &&
      reads [0b01011101] .ldEL &&
      reads [0b01011111] .ldEA) = true := by decide

theorem test_decode_ld_h_reg :
    (reads [0b01100000] .ldHB &&
      reads [0b01100001] .ldHC &&
      reads [0b01100010] .ldHD &&
      reads [0b01100011] .ldHE &&
      reads [0b01100100] .ldHH &&
      reads [0b01100101] .ldHL &&
      reads [0b01100111] .ldHA) = true := by decide

theorem test_decode_ld_l_reg :
    (reads [0b01101000] .ldLB &&
      reads [0b01101001] .ldLC &&
      reads [0b01101010] .ldLD &&
      reads [0b01101011] .ldLE &&
      reads [0b01101100] .ldLH &&
      reads [0b01101101] .ldLL &&
      reads [0b01101111] .ldLA) = true := by decide

theorem test_decode_ld_to_hl :
    (reads [0b01110000] .ldAtHLB &&
      reads [0b01110001] .ldAtHLC &&
      reads [0b01110010] .ldAtHLD &&
      reads [0b01110011] .ldAtHLE &&
      reads [0b01110100] .ldAtHLH &&
      reads [0b01110101] .ldAtHLL &&
      reads [0b01110111] .ldAtHLA) = true := by decide

theorem test_decode_ld_a_reg :
    (reads [0b01111000] .ldAB &&
      reads [0b01111001] .ldAC &&
      reads [0b01111010] .ldAD &&
      reads [0b01111011] .ldAE &&
      reads [0b01111100] .ldAH &&
      reads [0b01111101] .ldAL &&
      reads [0b01111111] .ldAA) = true := by decide

theorem test_decode_and :
    (reads [0b10100000] .andB &&
      reads [0b10100001] .andC &&
      reads [0b10100010] .andD &&
      reads [0b10100011] .andE &&
      reads [0b10100100] .andH &&
      reads [0b10100101] .andL &&
      reads [0b10100110] .andAtHL &&
      reads [0b10100111] .andA &&
      reads [0b11100110, 0x34] (.andImm 0x34)) = true := by decide

theorem test_decode_xor :
    (reads [0b10101000] .xorB &&
      reads [0b10101001] .xorC &&
      reads [0b10101010] .xorD &&
      reads [0b10101011] .xorE &&
      reads [0b10101100] .xorH &&
      reads [0b10101101] .xorL &&
      reads [0b10101110] .xorAtHL &&
      reads [0b10101111] .xorA &&
      reads [0b11101110, 0x34] (.xorImm 0x34)) = true := by decide

theorem test_decode_or :
    (reads [0b10110000] .orB &&
      reads [0b10110001] .orC &&
      reads [0b10110010] .orD &&
      reads [0b10110011] .orE &&
      reads [0b10110100] .orH &&
      reads [0b10110101] .orL &&
      reads [0b10110110] .orAtHL &&
      reads [0b10110111] .orA &&
      reads [0b11110110, 0x34] (.orImm 0x34)) = true := by decide

theorem test_decode_bit0 :
    (reads [0b11001011, 0b01000000] .bit0B &&
      reads [0b11001011, 0b01000001] .bit0C &&
      reads [0b11001011, 0b01000010] .bit0D &&
      reads [0b11001011, 0b01000011] .bit0E &&
      reads [0b11001011, 0b01000100] .bit0H &&
      reads [0b11001011, 0b01000101] .bit0L &&
      reads [0b11001011, 0b01000111] .bit0A) = true := by decide

theorem test_decode_bit1 :
    (reads [0b11001011, 0b01001000] .bit1B &&
      reads [0b11001011, 0b01001001] .bit1C &&
      reads [0b11001011, 0b01001010] .bit1D &&
      reads [0b11001011, 0b01001011] .bit1E &&
      reads [0b11001011, 0b01001100] .bit1H &&
      reads [0b11001011, 0b01001101] .bit1L &&
      reads [0b11001011, 0b01001111] .bit1A) = true := by decide

theorem test_decode_bit2 :
    (reads [0b11001011, 0b01010000] .bit2B &&
      reads [0b11001011, 0b01010001] .bit2C &&
      reads [0b11001011, 0b01010010] .bit2D &&
      reads [0b11001011, 0b01010011] .bit2E &&
      reads [0b11001011, 0b01010100] .bit2H &&
      reads [0b11001011, 0b01010101] .bit2L &&
      reads [0b11001011, 0b01010111] .bit2A) = true := by decide

theorem test_decode_bit3 :
    (reads [0b11001011, 0b01011000] .bit3B &&
      reads [0b11001011, 0b01011001] .bit3C &&
      reads [0b11001011, 0b01011010] .bit3D &&
      reads [0b11001011, 0b01011011] .bit3E &&
      reads [0b11001011, 0b01011100] .bit3H &&
      reads [0b11001011, 0b01011101] .bit3L &&
      reads [0b11001011, 0b01011111] .bit3A) = true := by decide

theorem test_decode_bit4 :
    (reads [0b11001011, 0b01100000] .bit4B &&
      reads [0b11001011, 0b01100001] .bit4C &&
      reads [0b11001011, 0b01100010] .bit4D &&
      reads [0b11001011, 0b01100011] .bit4E &&
      reads [0b11001011, 0b01100100] .bit4H &&
      reads [0b11001011, 0b01100101] .bit4L &&
      reads [0b11001011, 0b01100111] .bit4A) = true := by decide

theorem test_decode_bit5 :
    (reads [0b11001011, 0b01101000] .bit5B &&
      reads [0b11001011, 0b01101001] .bit5C &&
      reads [0b11001011, 0b01101010] .bit5D &&
      reads [0b11001011, 0b01101011] .bit5E &&
      reads [0b11001011, 0b01101100] .bit5H &&
      reads [0b11001011, 0b01101101] .bit5L &&
      reads [0b11001011, 0b01101111] .bit5A) = true := by decide

theorem test_decode_bit6 :
    (reads [0b11001011, 0b01110000] .bit6B &&
      reads [0b11001011, 0b01110001] .bit6C &&
      reads [0b11001011, 0b01110010] .bit6D &&
      reads [0b11001011, 0b01110011] .bit6E &&
      reads [0b11001011, 0b01110100] .bit6H &&
      reads [0b11001011, 0b01110101] .bit6L &&
      reads [0b11001011, 0b01110111] .bit6A) = true := by decide

theorem test_decode_bit7 :
    (reads [0b11001011, 0b01111000] .bit7B &&
      reads [0b11001011, 0b01111001] .bit7C &&
      reads [0b11001011, 0b01111010] .bit7D &&
      reads [0b11001011, 0b01111011] .bit7E &&
      reads [0b11001011, 0b01111100] .bit7H &&
      reads [0b11001011, 0b01111101] .bit7L &&
      reads [0b11001011, 0b01111111] .bit7A) = true := by decide

theorem test_decode_undefined :
    decode [0xD3] = .error (.noBaseHandler 0xD3) ∧ decode [0x76] = .error (.noBaseHandler 0x76) ∧
    decode [0x34] = .error (.noBaseHandler 0x34) ∧ decode [0x18, 0x05] = .error (.noBaseHandler 0x18) ∧
    decode [0xCB, 0x46] = .error (.noExtendedHandler 0x46) ∧ decode [0xCB, 0xCB] = .error (.noExtendedHandler 0xCB) :=
  ⟨rfl, rfl, rfl, rfl, rfl, rfl⟩

theorem test_decode_truncated :
    decode [] = .error .truncated ∧ decode [0xCB] = .error .truncated ∧ decode [0x06] = .error .truncated ∧
    decode [0x21, 0x00] = .error .truncated := ⟨rfl, rfl, rfl, rfl⟩

/-- The table's 16-bit words have the escape byte on top; the same word numbered byte by byte is read too (log 10). -/
theorem test_decodeTableWord :
    decodeTableWord 8 0xC3 = some (.jp 0) ∧ decodeTableWord 16 0xCB7F = some .bit7A ∧
    decodeTableWord 16 0x7FCB = some .bit7A ∧ decodeTableWord 24 0x1234C3 = some (.jp 0x1234) ∧
    decodeTableWord 8 0xD3 = none := by decide

theorem test_withFetchWord :
    isNext (step (State.reset.withFetchWord 24 0x1234C3))
      { State.reset.withFetchWord 24 0x1234C3 with pc := 0x1234, returned := some (.cycles 16) } = true := by decide

/-! ### Well-formedness: the one check is JR's displacement -/

theorem test_wf_refuses_jrNZ_128 : (Instr.jrNZ 128).wf = false := by decide
theorem test_wf_refuses_jrZ_minus_129 : (Instr.jrZ (-129)).wf = false := by decide
theorem test_wf_refuses_jrNC_and_jrC : ((Instr.jrNC 128).wf || (Instr.jrC (-129)).wf) = false := by decide
theorem test_wf_accepts_the_ends :
    ((Instr.jrNZ 127).wf && (Instr.jrZ (-128)).wf && (Instr.jrNC 127).wf && (Instr.jrC (-128)).wf) = true := by decide

/-! ### Loads: vectors L1 to L19 -/

theorem test_L1 : oneStep (boot [0x06, 0x12]) 8 (fun s => { s with b := 0x12, pc := 0x0102 }) = true := by decide

theorem test_L2 :
    oneStep { boot [0x3E, 0x00] with a := 0x55, f := 0xF0 } 8 (fun s => { s with a := 0, pc := 0x0102 }) = true := by decide

theorem test_L3 : oneStep { boot [0x78] with b := 0x5A } 4 (fun s => { s with a := 0x5A, pc := 0x0101 }) = true := by decide

theorem test_L4 : oneStep { boot [0x40] with b := 0x33, f := 0x90 } 4 (fun s => { s with pc := 0x0101 }) = true := by decide

theorem test_L5 :
    oneStep { boot [0x66] with h := 0xC0, mem := [(0x0100, 0x66), (0xC000, 0x12)] } 8
      (fun s => { s with h := 0x12, pc := 0x0101 }) = true := by decide

theorem test_L6 :
    oneStep { boot [0x74] with h := 0xC0, l := 0x12 } 8
      (fun s => { s with mem := [(0x0100, 0x74), (0xC012, 0xC0)], pc := 0x0101 }) = true := by decide

theorem test_L7 :
    oneStep { boot [0x0A] with b := 0x80, mem := [(0x0100, 0x0A), (0x8000, 0x07)] } 8
      (fun s => { s with a := 0x07, pc := 0x0101 }) = true := by decide

theorem test_L8 :
    oneStep { boot [0x1A] with d := 0xFF, e := 0xFF, mem := [(0x0100, 0x1A), (0xFFFF, 0xAB)] } 8
      (fun s => { s with a := 0xAB, pc := 0x0101 }) = true := by decide

theorem test_L9 :
    oneStep { boot [0x02] with b := 0xC1, a := 0x42 } 8
      (fun s => { s with mem := [(0x0100, 0x02), (0xC100, 0x42)], pc := 0x0101 }) = true := by decide

theorem test_L10 :
    oneStep { boot [0x12] with d := 0xC0, e := 0x01, a := 0x0C } 8
      (fun s => { s with mem := [(0x0100, 0x12), (0xC001, 0x0C)], pc := 0x0101 }) = true := by decide

theorem test_L11 :
    oneStep (boot [0x11, 0x34, 0x12]) 12 (fun s => { s with d := 0x12, e := 0x34, pc := 0x0103 }) = true := by decide

theorem test_L12 :
    oneStep { boot [0x21, 0x00, 0xC0] with l := 0x77 } 12
      (fun s => { s with h := 0xC0, l := 0x00, pc := 0x0103 }) = true := by decide

theorem test_L13 : oneStep (boot [0x31, 0x00, 0xD0]) 12 (fun s => { s with sp := 0xD000, pc := 0x0103 }) = true := by decide

theorem test_L14 : isFault (step (placed 0xFFFD [0x31, 0x00, 0x00])) 0x10000 = true := by decide

theorem test_L15 : isFault (step (placed 0xFFFE [0x31, 0x00])) 0x10000 = true := by decide

theorem test_L16 : isFault (step (placed 0xFFFE [0x06, 0x12])) 0x10000 = true := by decide

theorem test_L17 : oneStep { boot [0xF9] with h := 0xC1 } 8 (fun s => { s with sp := 0xC100, pc := 0x0101 }) = true := by decide

theorem test_L18 : undefinedStep (boot [0x76]) [0x76] = true := by decide

theorem test_L19 : undefinedStep (boot [0x36, 0x55]) [0x36] = true := by decide

/-! ### Logic: vectors A1 to A11 -/

theorem test_A1 :
    oneStep { boot [0xA0] with a := 0x3C, b := 0x0F, f := 0x0F } 4
      (fun s => { s with a := 0x0C, f := 0x2F, pc := 0x0101 }) = true := by decide

theorem test_A2 :
    oneStep { boot [0xE6, 0x00] with a := 0xFF, f := 0x1F } 8
      (fun s => { s with a := 0x00, f := 0xAF, pc := 0x0102 }) = true := by decide

theorem test_A3 : oneStep { boot [0xA7] with a := 0x81 } 4 (fun s => { s with f := 0x20, pc := 0x0101 }) = true := by decide

theorem test_A4 :
    oneStep { boot [0xA6] with a := 0xF0, h := 0xC0, mem := [(0x0100, 0xA6), (0xC000, 0x0F)] } 8
      (fun s => { s with a := 0x00, f := 0xA0, pc := 0x0101 }) = true := by decide

theorem test_A5 :
    oneStep { boot [0xB7] with f := 0x70 } 4 (fun s => { s with f := 0x80, pc := 0x0101 }) = true := by decide

theorem test_A6 :
    oneStep { boot [0xF6, 0x01] with a := 0x80, f := 0xF0 } 8
      (fun s => { s with a := 0x81, f := 0x00, pc := 0x0102 }) = true := by decide

theorem test_A7 :
    oneStep { boot [0xB6] with a := 0x30, h := 0xC0, mem := [(0x0100, 0xB6), (0xC000, 0x3C)] } 8
      (fun s => { s with a := 0x3C, f := 0x00, pc := 0x0101 }) = true := by decide

theorem test_A8 :
    oneStep { boot [0xAF] with a := 0x5A, f := 0x70 } 4
      (fun s => { s with a := 0x00, f := 0x80, pc := 0x0101 }) = true := by decide

theorem test_A9 :
    oneStep { boot [0xEE, 0xFF] with a := 0x0F, f := 0xF0 } 8
      (fun s => { s with a := 0xF0, f := 0x00, pc := 0x0102 }) = true := by decide

theorem test_A10 :
    oneStep { boot [0xAE] with a := 0x55, h := 0xC0, mem := [(0x0100, 0xAE), (0xC000, 0x55)] } 8
      (fun s => { s with a := 0x00, f := 0x80, pc := 0x0101 }) = true := by decide

theorem test_A11 :
    oneStep { boot [0xA9] with a := 0x0C, c := 0x3C } 4
      (fun s => { s with a := 0x30, f := 0x00, pc := 0x0101 }) = true := by decide

/-! ### Increment: vectors I1 to I6 -/

theorem test_I1 :
    oneStep { boot [0x3C] with a := 0xFF, f := 0x10 } 4
      (fun s => { s with a := 0x00, f := 0xB0, pc := 0x0101 }) = true := by decide

theorem test_I2 :
    oneStep { boot [0x04] with b := 0x0F, f := 0x10 } 4
      (fun s => { s with b := 0x10, f := 0x30, pc := 0x0101 }) = true := by decide

theorem test_I3 :
    oneStep { boot [0x04] with b := 0x10, f := 0xE0 } 4
      (fun s => { s with b := 0x11, f := 0x00, pc := 0x0101 }) = true := by decide

theorem test_I5 :
    oneStep { boot [0x2C] with h := 0x12, l := 0xFF } 4
      (fun s => { s with l := 0x00, f := 0xA0, pc := 0x0101 }) = true := by decide

theorem test_I6 : undefinedStep (boot [0x34]) [0x34] = true := by decide

/-! ### Complement, carry and no-op: vectors K1 to K7, S11 -/

theorem test_K1 :
    oneStep { boot [0x2F] with a := 0xFF } 4 (fun s => { s with a := 0x00, f := 0x60, pc := 0x0101 }) = true := by decide

theorem test_K2 :
    oneStep { boot [0x2F] with f := 0x80 } 4 (fun s => { s with a := 0xFF, f := 0xE0, pc := 0x0101 }) = true := by decide

theorem test_K3 : oneStep { boot [0x3F] with f := 0x7F } 4 (fun s => { s with f := 0x0F, pc := 0x0101 }) = true := by decide

theorem test_K4 : oneStep { boot [0x3F] with f := 0x90 } 4 (fun s => { s with f := 0x80, pc := 0x0101 }) = true := by decide

theorem test_K5 : oneStep { boot [0x37] with f := 0x6F } 4 (fun s => { s with f := 0x1F, pc := 0x0101 }) = true := by decide

theorem test_K6 : oneStep { boot [0x37] with f := 0xE0 } 4 (fun s => { s with f := 0x90, pc := 0x0101 }) = true := by decide

theorem test_K7 : isFault (step (placed 0xFFFF [])) 0x10000 = true := by decide

theorem test_S11 : oneStep State.reset 4 (fun s => { s with pc := 0x0101 }) = true := by decide

/-! ### Control transfer: vectors J1 to J21 -/

theorem test_J1 : oneStep (boot [0xC3, 0x34, 0x12]) 16 (fun s => { s with pc := 0x1234 }) = true := by decide

theorem test_J3 : isFault (step (placed 0xFFFD [0xC3, 0x00, 0x00])) 0x10000 = true := by decide

theorem test_J4_J5 :
    (oneStep (placed 0x0200 [0x20, 0xFE]) 12 (fun s => { s with pc := 0x0200 }) &&
      oneStep { placed 0x0200 [0x20, 0xFE] with f := 0x80 } 8 (fun s => { s with pc := 0x0202 })) = true := by decide

theorem test_J6 : oneStep { boot [0x28, 0x00] with f := 0x80 } 12 (fun s => { s with pc := 0x0102 }) = true := by decide

theorem test_J7 :
    oneStep { placed 0x0300 [0x28, 0x10] with f := 0x80 } 12 (fun s => { s with pc := 0x0312 }) = true := by decide

theorem test_J8 : oneStep (placed 0x0200 [0x30, 0x80]) 12 (fun s => { s with pc := 0x0182 }) = true := by decide

theorem test_J9 : oneStep (placed 0x0400 [0x30, 0xF0]) 12 (fun s => { s with pc := 0x03F2 }) = true := by decide

theorem test_J10 :
    oneStep { placed 0x0200 [0x38, 0x7F] with f := 0x10 } 12 (fun s => { s with pc := 0x0281 }) = true := by decide

theorem test_J11 : oneStep (placed 0x0400 [0x38, 0x05]) 8 (fun s => { s with pc := 0x0402 }) = true := by decide

theorem test_J12_J13 :
    (isFault (step (placed 0x0000 [0x20, 0xFD])) (-1) && isFault (step (placed 0xFFF0 [0x20, 0x7F])) 0x10071)
      = true := by decide

theorem test_J14 :
    oneStep { placed 0x0000 [0x20, 0xFD] with f := 0x80 } 8 (fun s => { s with pc := 0x0002 }) = true := by decide

theorem test_J15 : isFault (step (placed 0xFFFE [0x20, 0x00])) 0x10000 = true := by decide

theorem test_J16 :
    oneStep (placed 0x0150 [0xCD, 0x00, 0x02]) 24 (fun s =>
      { s with
        pc := 0x0200
        sp := 0xFFFC
        mem := [(0x0150, 0xCD), (0x0152, 0x02), (0xFFFC, 0x53), (0xFFFD, 0x01)] }) = true := by decide

theorem test_J17 :
    oneStep { boot [0xCD, 0x34, 0x12] with sp := 0x0002 } 24 (fun s =>
      { s with
        pc := 0x1234
        sp := 0x0000
        mem := [(0x0000, 0x03), (0x0001, 0x01), (0x0100, 0xCD), (0x0101, 0x34), (0x0102, 0x12)] }) = true := by decide

theorem test_J19_J20 :
    (isFault (step { boot [0xCD, 0x34, 0x12] with sp := 0 }) (-2) &&
      isFault (step { boot [0xCD, 0x34, 0x12] with sp := 1 }) (-1)) = true := by decide

theorem test_J21 : undefinedStep (boot [0x18, 0x05]) [0x18] = true := by decide

/-! ### Bit test: vectors B1 to B5 -/

theorem test_B1 :
    oneStep { boot [0xCB, 0x7F] with a := 0x80 } 8 (fun s => { s with f := 0x20, pc := 0x0102 }) = true := by decide

theorem test_B2 :
    ([(0x47, 0x20), (0x4F, 0xA0), (0x57, 0x20), (0x5F, 0xA0), (0x67, 0xA0), (0x6F, 0x20), (0x77, 0xA0), (0x7F, 0x20)].all
      fun (op, f) => oneStep { boot [0xCB, op] with a := 0xA5 } 8 (fun s => { s with f := f, pc := 0x0102 })) = true := by decide

theorem test_B3 :
    oneStep { boot [0xCB, 0x40] with f := 0x10 } 8 (fun s => { s with f := 0xB0, pc := 0x0102 }) = true := by decide

theorem test_B4 : undefinedStep (boot [0xCB, 0x46]) [0xCB, 0x46] = true := by decide

theorem test_B5 : isFault (step (placed 0xFFFE [0xCB, 0x7F])) 0x10000 = true := by decide

/-! ### Undefined bytes and the top of memory: vectors U1 to U5 -/

theorem test_U1_U2_U3 :
    (undefinedStep (boot [0xD3]) [0xD3] && undefinedStep (boot [0xCB, 0x00]) [0xCB, 0x00] &&
      undefinedStep (boot [0xCB, 0xCB]) [0xCB, 0xCB]) = true := by decide

theorem test_U4_U5 :
    (isFault (step (placed 0xFFFF [0xD3])) 0x10000 && isFault (step (placed 0xFFFF [0xCB])) 0x10000) = true := by decide

/-! ### Memory, registers and the host: vectors M1 to M8 -/

theorem test_M1_M3 :
    (isNext (hostWriteWord 0xFFFE 0x1234 State.reset) { State.reset with mem := [(0xFFFE, 0x34), (0xFFFF, 0x12)] } &&
      isFault (hostWriteWord 0xFFFF 0x1234 State.reset) 0x10000) = true := by decide

theorem test_M2 : hostReadWord 0xFFFF State.reset = .error (.outOfRangeAddress 0x10000) := rfl

theorem test_M4_M5 :
    (isFault (hostLoadBlock 0xFFFF [1, 2] State.reset) 0x10000 &&
      isNext (hostLoadBlock 0xFFFE [1, 2] State.reset) { State.reset with mem := [(0xFFFE, 1), (0xFFFF, 2)] }) = true := by decide

theorem test_M6 :
    oneStep { (boot [0xA0]).setPair .af 0x12FF with b := 0x0F } 4
      (fun s => { s with a := 0x02, f := 0x2F, pc := 0x0101 }) = true := by decide

theorem test_M7 :
    isNext (setFlagBit 4 true State.reset) { State.reset with f := 0x10 } = true ∧
    ({ State.reset with f := 0x10 } : State).flag .c = true := by decide

theorem test_M8 :
    init { boot [0xD3] with a := 1, f := 0xFF, sp := 2, pc := 3 } = boot [0xD3] := by decide

/-- Writing the value an unlisted address reads as removes the entry (log 7). -/
theorem test_memory_zero_is_unlisted : Memory.write8 [(5, 1), (7, 2)] 5 0 = [(7, 2)] := by decide


/-! ### Witnesses: for every statement with hypotheses, concrete states and operands that meet all of them together; the
ends of each range are among them -/

theorem test_witness_DecodeEncodeAgree :
    (Instr.jrC (-128)).wf = true ∧ (Instr.jrC 127).wf = true ∧ Instr.nop.wf = true := by decide

theorem test_witness_EncodeDecodeAgree : decode [0x20, 0x80, 0x55] = .ok (.jrNZ (-128), [0x55]) := rfl

theorem test_witness_EscapeSelectsTheExtendedTable :
    extendedTable 0x40 = some .bit0B ∧ extendedTable 0x7F = some .bit7A ∧ extendedTable 0x3F = none ∧
    extendedTable 0x80 = none := ⟨rfl, rfl, rfl, rfl⟩

theorem test_witness_InstructionLengths :
    (encode .bit0B).head? = some Config.escape ∧ (encode (.jp 0)).head? = (encode (.jp 0xFFFF)).head? := ⟨rfl, rfl⟩

/-- A three-byte window, one cut to the instruction's own length at the top of memory, and one it does not fit in. -/
theorem test_witness_StepRunsDecodedInstruction :
    decode (boot [0x21, 0x00, 0xC0]).window = .ok (.ldHLImm16 0xC000, []) ∧
    decode (placed 0xFFFD [0xC3, 0x34, 0x12]).window = .ok (.jp 0x1234, []) ∧
    decode (placed 0xFFFF []).window = .ok (.nop, []) := ⟨rfl, rfl, rfl⟩

theorem test_witness_UndefinedOpcodeOutcome :
    ((placed 0xFFFE [0xD3]).fits 1 ∧ (placed 0xFFFE [0xD3]).mem.read8 0xFFFE = 0xD3 ∧ (0xD3 : Byte) ≠ Config.escape ∧
      (baseTable 0xD3).isNone = true) ∧
    ((placed 0xFFFD [0xCB, 0x37]).fits 2 ∧ (placed 0xFFFD [0xCB, 0x37]).mem.read8 0xFFFD = Config.escape ∧
      (placed 0xFFFD [0xCB, 0x37]).mem.read8 (0xFFFD + 1) = 0x37 ∧ extendedTable 0x37 = none) ∧
    isNext (exec .nop State.reset) (State.reset.after 1 4) = true := by decide

theorem test_witness_FetchAtTopOfMemoryFaults :
    (placed 0xFFFF [0xD3]).pc = 0xFFFF ∧
    ((placed 0xFFFE [0xCB]).pc = 0xFFFE ∧ (placed 0xFFFE [0xCB]).mem.read8 0xFFFE = Config.escape) ∧
    decode (placed 0xFFFF [0x06]).window = .error .truncated ∧
    decode (placed 0xFFFE [0x31]).window = .error .truncated := ⟨rfl, ⟨rfl, rfl⟩, rfl, rfl⟩

/-- Every row of the table of faults is met, at its boundary. -/
theorem test_witness_InstructionFaultsExactlyAsTabled :
    (isFault (exec .nop (placed 0xFFFF [])) 0x10000 &&
      isFault (exec (.jrNZ (-3)) (placed 0x0000 [])) (-1) && isFault (exec (.jrNZ 4) (placed 0xFFFA [])) 0x10000 &&
      isFault (exec (.call 0) { State.reset with sp := 1 }) (-1)) = true := by decide

theorem test_witness_StepFaultsRecordOutOfRangeIntegers :
    step (placed 0xFFFF []) = .fault (.outOfRangeAddress 0x10000) := rfl

theorem test_witness_StepOutcomes : isNext (exec .ccf State.reset) ({ State.reset with f := 0x10 }.after 1 4) = true := by
  decide

/-- A form with no condition but its length, a JR taken to either end of memory, a CALL with the least sp. -/
theorem test_witness_EveryInstructionCompletes :
    (placed 0xFFFE []).fits 1 ∧
    ((placed 0x0000 []).fits 2 ∧ (placed 0x0000 []).holds .nz = true ∧ (placed 0x0000 []).jrTarget (-2) = 0) ∧
    ((placed 0xFFFD []).fits 2 ∧ (placed 0xFFFD []).holds .nc = true ∧ (placed 0xFFFD []).jrTarget 0 = 0xFFFF) ∧
    (({ placed 0xFFFC [] with sp := 2 } : State).fits 3 ∧ ({ placed 0xFFFC [] with sp := 2 } : State).sp.toNat = 2) := by
  decide

theorem test_witness_StepKeepsInvariant :
    State.reset.Inv ∧ isNext (step State.reset) (State.reset.after 1 4) = true := ⟨⟨rfl, rfl⟩, by decide⟩

theorem test_witness_LowFlagBitsKeptAndInert :
    isNext (step { boot [0xA0] with f := 0x0F }) ({ boot [0xA0] with f := 0xAF }.after 1 4) = true := by decide

theorem test_witness_CycleCountTable :
    isNext (exec (.jrZ 5) State.reset) (State.reset.after 2 8) = true := by decide

theorem test_witness_OnlyTransfersRedirectPc :
    Instr.ldSPHL.form.transfers = false ∧ isNext (exec .ldSPHL State.reset) ({ State.reset with sp := 0 }.after 1 8) = true := by
  decide

theorem test_witness_RegisterWriters :
    isNext (exec .incB State.reset) ({ State.reset with b := 1, f := 0 }.after 1 4) = true ∧
    Reg.c ≠ Reg.f ∧ Reg.c ∉ Instr.incB.form.writes ∧ Instr.incB.form.writesSp = false ∧
    (Instr.jp 7).form.flagEffects = (.kept, .kept, .kept, .kept) := by decide

theorem test_witness_FlagEffectTable :
    isNext (exec .scf State.reset) ({ State.reset with f := 0x10 }.after 1 4) = true := by decide

/-- JR NZ reads Z alone: F = 0x00 and F = 0x7F agree on it. CCF reads C alone: F = 0x10 and F = 0xFF agree on it, and both
answers are next states with C inverted, where Z, which it does not write, keeps its own value. -/
theorem test_witness_FlagReaders :
    (Instr.jrNZ 5).form.readsFlag = some .z ∧
    ({ State.reset with f := 0x7F } : State).flag .z = State.reset.flag .z ∧ Instr.nop.form.readsFlag = none ∧
    Instr.ccf.form.readsFlag = some .c ∧
    ({ State.reset with f := 0xFF } : State).flag .c = ({ State.reset with f := 0x10 } : State).flag .c ∧
    isNext (exec .ccf { State.reset with f := 0x10 }) ({ State.reset with f := 0x00 }.after 1 4) = true ∧
    isNext (exec .ccf { State.reset with f := 0xFF }) ({ State.reset with f := 0x8F }.after 1 4) = true ∧
    Instr.ccf.form.flagEffect .c ≠ .kept ∧ Instr.ccf.form.flagEffect .z = .kept := by decide

theorem test_witness_MemoryKeptByNonStoringForms :
    Instr.andAtHL.form.store State.reset = none ∧
    isNext (exec .andAtHL State.reset) ({ State.reset with f := 0xA0 }.after 1 8) = true := by decide

/-- A store at the last address, a push at the last two below 0xFFFF, and an address just outside each. -/
theorem test_witness_MemoryKeptOutsideStoredBytes :
    (Instr.ldAtBCA.form.store { State.reset with b := 0xFF, c := 0xFF } = some (0xFFFF, 1) ∧
      isNext (exec .ldAtBCA { State.reset with b := 0xFF, c := 0xFF, a := 9 })
        ({ State.reset with b := 0xFF, c := 0xFF, a := 9, mem := [(0xFFFF, 9)] }.after 1 8) = true ∧
      (0xFFFE : Word).toNat < 0xFFFF) ∧
    ((Instr.call 7).form.store State.reset = some (0xFFFC, 2) ∧
      isNext (exec (.call 7) State.reset)
        { State.reset with sp := 0xFFFC, pc := 7, mem := [(0xFFFC, 0x03), (0xFFFD, 0x01)], returned := some (.cycles 24) }
        = true ∧
      0xFFFC + 2 ≤ (0xFFFE : Word).toNat) := by decide

/-- LD (HL),A and LD (BC),A that store INC A (0x3C) after themselves, and a CALL at 0x0101 to its own stack slot, where the
low byte of 0x0104 it pushes is INC B. -/
theorem test_witness_StoredByteIsFetchedNext :
    (let s : State := { boot [0x77] with h := 0x01, l := 0x01, a := 0x3C };
      s.mem.wf = true ∧ s.fits 2 ∧ decode s.window = .ok (.ldAtHLA, [0, 0]) ∧ Instr.ldAtHLA.form = .ldHLR .a ∧
        s.pair .hl = s.pc + 1 ∧ decode [s.r8 .a] = .ok (.incA, [])) ∧
    (let s : State := { boot [0x02] with b := 0x01, c := 0x01, a := 0x3C };
      s.mem.wf = true ∧ s.fits 2 ∧ decode s.window = .ok (.ldAtBCA, [0, 0]) ∧ Instr.ldAtBCA.form = .ldPtrA .bc ∧
        s.pair .bc = s.pc + 1 ∧ decode [s.a] = .ok (.incA, [])) ∧
    (let s : State := placed 0x0101 [0xCD, 0xFC, 0xFF];
      s.mem.wf = true ∧ s.fits 3 ∧ 2 ≤ s.sp.toNat ∧ decode s.window = .ok (.call (s.sp - 2), []) ∧
        decode [loByte (s.pc + 3)] = .ok (.incB, [])) :=
  ⟨⟨rfl, by decide, rfl, rfl, by decide, rfl⟩, ⟨rfl, by decide, rfl, rfl, by decide, rfl⟩,
    rfl, by decide, by decide, rfl, rfl⟩

/-! The statements of single instructions ask for a form, and for a state that fits or does not: each form is some
instruction's, and pc = 0xFFFE, 0xFFFD, 0xFFFC are the last places an instruction of 1, 2, 3 bytes fits. -/

theorem test_witness_fits :
    (placed 0xFFFE []).fits 1 ∧ ¬(placed 0xFFFF []).fits 1 ∧ (placed 0xFFFD []).fits 2 ∧ ¬(placed 0xFFFE []).fits 2 ∧
    (placed 0xFFFC []).fits 3 ∧ ¬(placed 0xFFFD []).fits 3 := by decide

theorem test_witness_LdRegImm : (Instr.ldLImm 0xFF).form = .ldRN .l 0xFF := rfl
theorem test_witness_LdRegReg : Instr.ldHL.form = .ldRR .h .l ∧ Instr.ldAA.form = .ldRR .a .a := ⟨rfl, rfl⟩
theorem test_witness_LdRegFromHL : Instr.ldHAtHL.form = .ldRHL .h := rfl

/-- The fetch clause too: a state with the stored byte where its pc is. -/
theorem test_witness_LdHLFromReg :
    Instr.ldAtHLL.form = .ldHLR .l ∧ State.reset.mem.wf = true ∧
    isNext (exec .ldAtHLL { State.reset with l := 0xFF })
      ({ State.reset with l := 0xFF, mem := [(0x00FF, 0xFF)] }.after 1 8) = true ∧
    (placed 0x00FF [0xFF]).mem = [(0x00FF, 0xFF)] ∧ (placed 0x00FF [0xFF]).pc = 0x00FF := by decide

theorem test_witness_LdPointerFromA :
    State.reset.mem.wf = true ∧
    isNext (exec .ldAtDEA { State.reset with e := 0xFF, a := 0xFF })
      ({ State.reset with e := 0xFF, a := 0xFF, mem := [(0x00FF, 0xFF)] }.after 1 8) = true ∧
    (placed 0x00FF [0xFF]).mem = [(0x00FF, 0xFF)] ∧ (placed 0x00FF [0xFF]).pc = 0x00FF := by decide

theorem test_witness_LdPairImm : (Instr.ldHLImm16 0xC012).form = .ldPairNN .hl (0xC0#8 ++ 0x12#8) := rfl

/-- The later CALL with an sp of 1, which fits. -/
theorem test_witness_LdSpImm : (placed 0xFFFC []).fits 3 ∧ (1 : Word).toNat < 2 ∧
    ({ placed 0xFFFC [] with sp := 1 } : State).sp = 1 := by decide

theorem test_witness_LogicRegister : Instr.xorA.form = .logicR .xor .a := rfl
theorem test_witness_LogicMemory : Instr.orAtHL.form = .logicHL .or := rfl
theorem test_witness_LogicImmediate : (Instr.andImm 0).form = .logicN .and 0 := rfl

theorem test_witness_IncRegister :
    Instr.incL.form = .incR .l ∧ (0x00 : Byte).toNat = (({ State.reset with l := 0xFF } : State).r8 .l).toNat.succ % 256 := by
  decide

theorem test_witness_JpAbsolute :
    (placed 0xFFFC []).pc.toNat < 0xFFFD ∧ 0xFFFD ≤ (placed 0xFFFD []).pc.toNat := by decide

/-- Not taken; taken to 0xFFFF and to 0; taken to one past either end. -/
theorem test_witness_JrRelative :
    (Instr.jrNC 5).form = .jr .nc 5 ∧ (0x80 : Byte).toInt = -128 ∧
    ({ placed 0xFFFD [] with f := 0x80 } : State).holds .nz = false ∧
    ((0xFFFF : Word).toNat : Int) = (placed 0xFFFD []).pc.toNat + 2 + 0 ∧
    ((0x0000 : Word).toNat : Int) = (placed 0x0000 []).pc.toNat + 2 + (-2) ∧
    (0xFFFF : Int) < (placed 0xFFFD []).pc.toNat + 2 + 1 ∧ ((placed 0x0000 []).pc.toNat : Int) + 2 + (-3) < 0 ∧
    (placed 0xFFFD []).holds .nz = true := by decide

/-- sp = 2, the least that pushes, and sp = 1 and 0; the fetch at the new sp. -/
theorem test_witness_CallPushesReturnAddress :
    (placed 0xFFFC []).pc.toNat < 0xFFFD ∧ 2 ≤ (2 : Word).toNat ∧ (1 : Word).toNat < 2 ∧ (0 : Word).toNat < 2 ∧
    0xFFFD ≤ (placed 0xFFFD []).pc.toNat ∧
    isNext (exec (.call 7) { State.reset with sp := 2 })
      { State.reset with sp := 0, pc := 7, mem := [(0, 0x03), (1, 0x01)], returned := some (.cycles 24) } = true ∧
    (placed 0 [0x03, 0x01]).mem = [(0, 0x03), (1, 0x01)] ∧ (placed 0 [0x03, 0x01]).pc = (2 : Word) - 2 := by decide

theorem test_witness_BitTest : Instr.bit7A.form = .bit 7 .a ∧ Instr.bit0B.form = .bit 0 .b := ⟨rfl, rfl⟩

theorem test_witness_InitForgetsRegistersAndKeepsMemory :
    (boot [0xD3]).mem = ({ boot [0xD3] with a := 1, sp := 2 } : State).mem := rfl

theorem test_witness_PairsAreTwoRegisters : Reg.c ≠ Pair.af.hi ∧ Reg.c ≠ Pair.af.lo := by decide

theorem test_witness_ByteAccessors : (0xFFFE : Word) ≠ 0xFFFF ∧ (boot [0xD3]).mem.wf = true := by decide

theorem test_witness_WordAccessors :
    (0xFFFE : Word) ≠ 0xFFFF ∧ (boot [0xD3]).mem.wf = true ∧ (0x0100 : Word) ≠ 0xFFFE ∧ (0x0100 : Word) ≠ 0xFFFE + 1 := by
  decide

/-- A block that ends at 0xFFFF, and one byte more. -/
theorem test_witness_LoadBlockCopiesOrFaults :
    (0xFFFE : Word).toNat + ([1, 2] : List Byte).length ≤ 65536 ∧ State.reset.mem.wf = true ∧
    (0xFFFF : Word).toNat = (0xFFFE : Word).toNat + 1 ∧ (0xFFFD : Word).toNat < (0xFFFE : Word).toNat ∧
    65536 < (0xFFFF : Word).toNat + ([1, 2] : List Byte).length := by decide

theorem test_witness_HostFlagAccess : (3 : Nat) ≠ 7 ∧ (3 : Nat) ≠ 6 ∧ (3 : Nat) ≠ 5 ∧ (3 : Nat) ≠ 4 := by decide

theorem test_witness_EqualReadsMeanEqualMemory : (boot [0x00, 0xD3]).mem.wf = true ∧ State.reset.mem.wf = true := by decide

/-- LD A,n, then a byte without a handler: the run ends there, 8 cycles spent. -/
theorem test_witness_NormalRunEnd :
    drive none 5 0 (boot [0x3E, 0x5A, 0xD3]) =
      .undefinedOpcode [0xD3] 0x0102
        { boot [0x3E, 0x5A, 0xD3] with a := 0x5A, pc := 0x0103, returned := some (.undefinedOpcode [0xD3] 0x0102) } 8 := by
  decide

/-- The other direction: one step that returns Cycles(8), within two steps and nine cycles, the least budgets that reach
the byte without a handler. -/
theorem test_witness_NormalRunEnd_run :
    (let u : State := { boot [0x3E, 0x5A, 0xD3] with a := 0x5A, pc := 0x0102, returned := some (.cycles 8) };
      CycleRun (boot [0x3E, 0x5A, 0xD3]) [8] u ∧ undefinedStep u [0xD3] = true ∧ [8].length < 2 ∧ [8].sum < 9) :=
  ⟨.step rfl rfl (.here _), by decide, by decide, by decide⟩

/-- A run whose second step faults, and the two budgets: two steps, and the cycles of one. -/
theorem test_witness_FaultAndBudgetRunEnds :
    CycleRun (placed 0xFFFE []) [4] ((placed 0xFFFE []).after 1 4) ∧
    step ((placed 0xFFFE []).after 1 4) = .fault (.outOfRangeAddress 0x10000) ∧
    drive (some 5) 2 0 (placed 0xFFFE []) = .fault (.outOfRangeAddress 0x10000) ∧
    drive none 1 0 (placed 0xFFFE []) = .budget ((placed 0xFFFE []).after 1 4) 4 ∧
    drive (some 4) 2 0 (placed 0xFFFE []) = .budget ((placed 0xFFFE []).after 1 4) 4 :=
  ⟨.step rfl rfl (.here _), rfl, by decide, by decide, by decide⟩

theorem test_drive_budget :
    drive (some 8) 5 0 (boot [0x00, 0x00, 0x00]) =
      .budget { boot [] with pc := 0x0102, returned := some (.cycles 4) } 8 := by decide

end Sys2Proof.Tests
end

section
/-! PROOF. What a step can end in, and the fetches at the top of memory (spec/00_scope.md: R14 to R16; R210 to R216). -/
namespace Sys2Proof

/-- An entry's operands are cut off only when fewer bytes follow than its format reads (R91, R94). -/
theorem Row.length_of_complete_truncated {row : Row} {rest : List Byte}
    (h : row.complete rest = .error .truncated) : rest.length + 1 < row.length := by
  cases row with
  | op i => cases h
  | imm8 f =>
    cases rest with
    | nil => simp [Row.length]
    | cons n rest => cases h
  | disp f =>
    cases rest with
    | nil => simp [Row.length]
    | cons e rest => cases h
  | imm16 f =>
    match rest with
    | [] => simp [Row.length]
    | [_] => simp [Row.length]
    | _ :: _ :: _ => cases h

/-- The two ways a non-empty list of bytes ends before its instruction does: after ESCAPE, or within the operands of a
base entry (R92). -/
theorem decode_cons_truncated {b1 : Byte} {rest : List Byte} (h : decode (b1 :: rest) = .error .truncated) :
    (b1 = Config.escape ∧ rest = []) ∨
      (b1 ≠ Config.escape ∧ ∃ row, baseTable b1 = some row ∧ rest.length + 1 < row.length) := by
  rw [decode.eq_def] at h
  dsimp only at h
  by_cases he : b1 = Config.escape
  · rw [if_pos he] at h
    cases rest with
    | nil => exact .inl ⟨he, rfl⟩
    | cons b2 rest' =>
      dsimp only at h
      split at h <;> cases h
  · rw [if_neg he] at h
    cases hb : baseTable b1 with
    | none => rw [hb] at h; cases h
    | some row =>
      rw [hb] at h
      exact .inr ⟨he, row, rfl, Row.length_of_complete_truncated h⟩

/-- Every count of R250's table is one of R16's five. -/
theorem Form.cycles_mem (f : Form) (s : Machine.State) : f.cycles s ∈ [4, 8, 12, 16, 24] := by
  cases f with
  | jr cc e => rw [Form.cycles]; split <;> decide
  | _ => simp [Form.cycles]

end Sys2Proof

namespace Sys2Proof.Machine

/-- How many of the next `n` bytes lie in memory. -/
theorem Memory.length_bytesFrom (m : Memory) (a n : Nat) :
    (m.bytesFrom a n).length = min n (Config.memSize - a) := by
  induction n generalizing a with
  | zero => simp [Memory.bytesFrom]
  | succ n ih =>
    rw [Memory.bytesFrom]
    split
    · rw [List.length_cons, ih]; omega
    · rw [List.length_nil]; omega

/-- The window is never empty: pc itself lies in memory. -/
theorem State.window_eq_cons (s : State) : s.window = s.mem.read8 s.pc :: s.mem.bytesFrom (s.pc.toNat + 1) 2 :=
  if_pos s.pc.isLt

theorem step_of_topFault {s : State} (h : fetchInstr s = topFault) : step s = endOfMemory := by
  rw [step, h]; rfl

/-- No room for the first byte's pc advance: the fault comes before any lookup (R216). -/
theorem step_of_not_fits_one {s : State} (h : ¬s.fits 1) : step s = endOfMemory :=
  step_of_topFault (by rw [fetchInstr_eq, if_neg h])

/-- ESCAPE without room for the second byte's pc advance faults before the extended lookup (R216). -/
theorem step_of_escape_not_fits {s : State} (he : s.mem.read8 s.pc = Config.escape) (h : ¬s.fits 2) :
    step s = endOfMemory := by
  by_cases h1 : s.fits 1
  · exact step_of_topFault (by rw [fetchInstr_eq, if_pos h1, if_pos he, if_neg h])
  · exact step_of_not_fits_one h1

/-- A base entry without room for its operands faults in their fetch (R213). -/
theorem step_of_row_not_fits {s : State} {row : Row} (he : s.mem.read8 s.pc ≠ Config.escape)
    (hb : baseTable (s.mem.read8 s.pc) = some row) (h : ¬s.fits row.length) : step s = endOfMemory := by
  by_cases h1 : s.fits 1
  · refine step_of_topFault ?_
    rw [fetchInstr_eq, if_pos h1, if_neg he, hb]
    exact if_neg h
  · exact step_of_not_fits_one h1

/-- An instruction that the top of memory cuts off faults with 0x10000 (R213). -/
theorem step_of_window_truncated {s : State} (h : decode s.window = .error .truncated) : step s = endOfMemory := by
  rw [State.window_eq_cons] at h
  have hlen := Memory.length_bytesFrom s.mem (s.pc.toNat + 1) 2
  rw [Config.memSize] at hlen
  rcases decode_cons_truncated h with ⟨he, hrest⟩ | ⟨he, row, hb, hshort⟩
  · rw [hrest, List.length_nil] at hlen
    exact step_of_escape_not_fits he (by rw [State.fits]; omega)
  · have hrow : row.length ≤ 3 := by cases row <;> simp [Row.length]
    exact step_of_row_not_fits he hb (by rw [State.fits]; omega)

/-- What a handler raises OutOfRangeAddress with is out of range (R14, R212). -/
theorem Form.raises_outOfRange {f : Form} {s : State} {a : Int} (h : Form.raises s f = some a) :
    a < 0 ∨ 0xFFFF < a := by
  rcases Form.raises_eq_some.mp h with ⟨cc, e, -, -, htarget, rfl⟩ | ⟨nn, -, hsp, rfl⟩
  · exact htarget
  · exact .inl (by omega)

/-- An instruction that faults does not fit, or raises in its handler. -/
theorem exec_fault {i : Instr} {s : State} {e : Fault} (h : exec i s = .fault e) :
    (¬s.fits i.form.length ∧ e = .outOfRangeAddress 0x10000) ∨
      (s.fits i.form.length ∧ ∃ a, Form.raises s i.form = some a ∧ e = .outOfRangeAddress a) := by
  by_cases hf : s.fits i.form.length
  · rw [exec_cases, if_pos hf] at h
    cases hr : Form.raises s i.form with
    | none => rw [hr] at h; cases h
    | some a => rw [hr] at h; cases h; exact .inr ⟨hf, a, rfl, rfl⟩
  · rw [exec_over hf] at h
    cases h
    exact .inl ⟨hf, rfl⟩

/-- A form's result returns the count of R250's table. -/
theorem Form.result_returned (f : Form) (s : State) :
    (Form.result s f).returned = some (.cycles (f.cycles s)) := by
  cases f with
  | jr cc e => rw [Form.result, Form.cycles]; split <;> rfl
  | _ => rfl

theorem exec_returned {i : Instr} {s t : State} (h : exec i s = .next t) :
    t.returned = some (.cycles (i.form.cycles s)) := by
  obtain ⟨-, -, rfl⟩ := exec_next h
  exact Form.result_returned i.form s

/-- Settles O11: a faulting step is a fetch at the top of memory, an instruction that does not fit, or a handler that
raises, and each records an integer out of range. -/
theorem stepFaultsRecordOutOfRangeIntegers : Obligations.StepFaultsRecordOutOfRangeIntegers := by
  intro s e h
  rcases step_fault h with ⟨i, -, hx⟩ | rfl
  · rcases exec_fault hx with ⟨-, rfl⟩ | ⟨-, a, hr, rfl⟩
    · exact ⟨_, rfl, .inr (by decide)⟩
    · exact ⟨a, rfl, Form.raises_outOfRange hr⟩
  · exact ⟨_, rfl, .inr (by decide)⟩

/-- Settles O12: a handler returns its count of R250's table, and a step is a handler's answer, an undefined opcode or a
fault. -/
theorem stepOutcomes : Obligations.StepOutcomes := by
  refine ⟨fun i s t h => ⟨_, Form.cycles_mem i.form s, exec_returned h⟩, fun s => ?_⟩
  cases hs : step s with
  | next t =>
    rcases step_next hs with ⟨i, -, hx⟩ | ⟨-, -, -, rfl⟩ | ⟨-, -, -, rfl⟩
    · exact .inl ⟨t, _, Form.cycles_mem i.form s, rfl, exec_returned hx⟩
    · exact .inr (.inl ⟨_, _, _, rfl, rfl⟩)
    · exact .inr (.inl ⟨_, _, _, rfl, rfl⟩)
  | fault e =>
    cases e with
    | outOfRangeAddress a => exact .inr (.inr ⟨a, rfl⟩)
  | refused r => exact absurd hs (step_ne_refused s r)

/-- Settles O9: each clause is one of the three fetches whose pc advance leaves memory. -/
theorem fetchAtTopOfMemoryFaults : Obligations.FetchAtTopOfMemoryFaults := by
  refine ⟨fun s hpc => step_of_not_fits_one ?_, fun s hpc he => step_of_escape_not_fits he ?_,
    fun s h => step_of_window_truncated h⟩
  · rw [State.fits, hpc]; decide
  · rw [State.fits, hpc]; decide

end Sys2Proof.Machine
end

section
/-! PROOF. Registers, pairs and the flags of F as a store of their own (R21, R22, R27 to R30, R36, R37). -/
namespace Sys2Proof.Machine

/-! ### The flags of a byte -/

/-- A byte is its four flags and its low nibble. -/
theorem byte_eq_of_flags {x y : Byte} (hflags : ∀ g, x.getLsbD (flagPos g) = y.getLsbD (flagPos g))
    (hlow : x &&& 0x0F = y &&& 0x0F) : x = y := by
  have hbit (i : Nat) : (x &&& 0x0F).getLsbD i = (y &&& 0x0F).getLsbD i := by rw [hlow]
  exact byte_ext (by simpa using hbit 0) (by simpa using hbit 1) (by simpa using hbit 2) (by simpa using hbit 3)
    (hflags .c) (hflags .h) (hflags .n) (hflags .z)

theorem flagPos_inj {g k : Flag} : flagPos g = flagPos k ↔ g = k := by cases g <;> cases k <;> decide

theorem flagMask_eq_twoPow (g : Flag) : flagMask g = BitVec.twoPow 8 (flagPos g) := by cases g <;> rfl

/-- The mask of the low nibble of F holds no flag (R29). -/
theorem lowMask_flagPos (g : Flag) : (0x0F : Byte).getLsbD (flagPos g) = false := by cases g <;> rfl

/-- A flag write sets its own bit of F and keeps the seven others (R28). -/
theorem State.setFlag_getLsbD (s : State) (g : Flag) (b : Bool) (j : Nat) :
    (s.setFlag g b).f.getLsbD j = if j = flagPos g then b else s.f.getLsbD j := by
  have hpos : flagPos g < 8 := by cases g <;> decide
  rw [State.setFlag_f, flagMask_eq_twoPow]
  by_cases hj : j = flagPos g
  · subst hj
    cases b <;> simp [hpos]
  · by_cases hj8 : j < 8
    · cases b <;> simp [hj, hj8]
    · cases b <;> simp [BitVec.getLsbD_of_ge _ j (by omega : 8 ≤ j), hj]

theorem State.setFlag_flag (s : State) (g k : Flag) (b : Bool) :
    (s.setFlag g b).flag k = if k = g then b else s.flag k := by
  simp only [State.flag_eq, State.setFlag_getLsbD, flagPos_inj]

@[simp] theorem State.setFlag_low (s : State) (g : Flag) (b : Bool) :
    (s.setFlag g b).f &&& 0x0F = s.f &&& 0x0F := by
  refine BitVec.eq_of_getLsbD_eq fun j _ => ?_
  rw [BitVec.getLsbD_and, BitVec.getLsbD_and, State.setFlag_getLsbD]
  split
  · next hj => rw [hj, lowMask_flagPos, Bool.and_false, Bool.and_false]
  · rfl

/-- The flags of an assigned F, `v g` being the value given for flag `g`. -/
theorem assignFlags_flag (f : Byte) (v : Flag → Bool) (g : Flag) :
    (assignFlags f (v .z) (v .n) (v .h) (v .c)).getLsbD (flagPos g) = v g := by
  obtain ⟨hz, hn, hh, hc, -⟩ := assignFlags_bits f (v .z) (v .n) (v .h) (v .c)
  cases g with
  | z => exact hz
  | n => exact hn
  | h => exact hh
  | c => exact hc

@[simp] theorem assignFlags_low (f : Byte) (z n h c : Bool) : assignFlags f z n h c &&& 0x0F = f &&& 0x0F := by
  obtain ⟨-, -, -, -, hlow⟩ := assignFlags_bits f z n h c
  exact hlow

/-- A byte with the given flags and the low nibble of F is the assignment of those flags to F (R30). -/
theorem assignFlags_eq_of_flags {x f : Byte} (v : Flag → Bool) (hflags : ∀ g, x.getLsbD (flagPos g) = v g)
    (hlow : x &&& 0x0F = f &&& 0x0F) : x = assignFlags f (v .z) (v .n) (v .h) (v .c) :=
  byte_eq_of_flags (fun g => by rw [hflags, assignFlags_flag]) (by rw [hlow, assignFlags_low])

/-- Assigning the flags F already holds changes nothing (R30). -/
theorem State.assignFlags_own (s : State) :
    assignFlags s.f (s.flag .z) (s.flag .n) (s.flag .h) (s.flag .c) = s.f :=
  (assignFlags_eq_of_flags s.flag (fun g => (s.flag_eq g).symm) rfl).symm

/-- Writing the four flags in turn is one assignment to F (R30). -/
theorem State.setFlags_eq (s : State) (v : Flag → Bool) :
    (((s.setFlag .z (v .z)).setFlag .n (v .n)).setFlag .h (v .h)).setFlag .c (v .c) =
      { s with f := assignFlags s.f (v .z) (v .n) (v .h) (v .c) } := by
  have hf : ((((s.setFlag .z (v .z)).setFlag .n (v .n)).setFlag .h (v .h)).setFlag .c (v .c)).f =
      assignFlags s.f (v .z) (v .n) (v .h) (v .c) := by
    refine assignFlags_eq_of_flags v (fun g => ?_) (by simp only [State.setFlag_low])
    rw [← State.flag_eq]
    cases g <;> simp [State.setFlag_flag]
  exact congrArg (fun f => { s with f := f }) hf

theorem State.setFlag_own (s : State) (g : Flag) : s.setFlag g (s.flag g) = s := by
  refine congrArg (fun f => { s with f := f }) (byte_eq_of_flags (fun k => ?_) (s.setFlag_low g (s.flag g)))
  rw [← State.flag_eq, ← State.flag_eq, State.setFlag_flag]
  split
  · next hk => rw [hk]
  · rfl

/-- One flag of R30's formula, as a shifted bit. -/
theorem flagMask_eq_shift (g : Flag) (b : Bool) :
    (if b then flagMask g else 0) = BitVec.ofNat 8 b.toNat <<< flagPos g := by cases g <;> cases b <;> rfl

/-- R30's formula with its shifts. -/
theorem assignFlags_eq_shift (f : Byte) (z n h c : Bool) :
    assignFlags f z n h c =
      f &&& 0x0F ||| BitVec.ofNat 8 z.toNat <<< flagPos .z ||| BitVec.ofNat 8 n.toNat <<< flagPos .n
        ||| BitVec.ofNat 8 h.toNat <<< flagPos .h ||| BitVec.ofNat 8 c.toNat <<< flagPos .c := by
  rw [← flagMask_eq_shift, ← flagMask_eq_shift, ← flagMask_eq_shift, ← flagMask_eq_shift]
  rfl

/-- Settles O51: the flags stand at `flagPos`, and `State.setFlag_getLsbD` says what a write does to each bit. -/
theorem flagsAreBitsOfF : Obligations.FlagsAreBitsOfF := by
  refine ⟨fun s => ⟨s.flag_eq .z, s.flag_eq .n, s.flag_eq .h, s.flag_eq .c⟩,
    fun s g b => ⟨flagPos g, ?_, ?_, ?_, ?_⟩⟩
  · cases g <;> rfl
  · rw [State.setFlag_getLsbD, if_pos rfl]
  · intro j hj
    rw [State.setFlag_getLsbD, if_neg hj]
  · exact s.setFlag_eq g b

/-- Settles O52: the four writes leave the flags and the low nibble of `assignFlags`. -/
theorem flagWritesAsOneAssignment : Obligations.FlagWritesAsOneAssignment := by
  refine ⟨fun s z n h c => ?_, State.setFlag_own, assignFlags_eq_shift⟩
  exact s.setFlags_eq fun | .z => z | .n => n | .h => h | .c => c

/-! ### Registers and pairs -/

/-- Settles O49: a register write is a write of one cell. -/
theorem registerCellsIndependent : Obligations.RegisterCellsIndependent := fun s r q v =>
  ⟨s.setReg_reg r q v, s.setReg_sp r v, s.setReg_pc r v, s.setReg_mem r v, s.setReg_returned r v⟩

theorem pair_hi_ne_lo (p : Pair) : p.hi ≠ p.lo := by cases p <;> decide

@[simp] theorem State.setPair_reg_lo (s : State) (p : Pair) (w : Word) : (s.setPair p w).reg p.lo = loByte w := by
  rw [State.setPair_reg, if_pos rfl]

@[simp] theorem State.setPair_reg_hi (s : State) (p : Pair) (w : Word) : (s.setPair p w).reg p.hi = hiByte w := by
  rw [State.setPair_reg, if_neg (pair_hi_ne_lo p), if_pos rfl]

theorem State.setPair_reg_of_ne (s : State) {p : Pair} {q : Reg} (w : Word) (hhi : q ≠ p.hi) (hlo : q ≠ p.lo) :
    (s.setPair p w).reg q = s.reg q := by
  rw [State.setPair_reg, if_neg hlo, if_neg hhi]

/-- The round-trip law of R22. -/
@[simp] theorem State.setPair_pair (s : State) (p : Pair) (w : Word) : (s.setPair p w).pair p = w := by
  rw [State.pair, State.setPair_reg_hi, State.setPair_reg_lo, joinBytes_hi_lo]

/-- Settles O50: a pair write is two register writes, each with its half of the word. -/
theorem pairsAreTwoRegisters : Obligations.PairsAreTwoRegisters := by
  refine ⟨fun s => ⟨rfl, rfl, rfl, rfl⟩, fun s p w => ⟨s.setPair_pair p w, ?_, ?_, fun q hhi hlo => ?_, ?_⟩⟩
  · rw [State.setPair_reg_hi, toNat_hiByte]
  · rw [State.setPair_reg_lo, toNat_loByte]
  · exact s.setPair_reg_of_ne w hhi hlo
  · exact ⟨s.setPair_sp p w, s.setPair_pc p w, s.setPair_mem p w⟩

/-! ### Power-on and the host's flag access -/

/-- Every register is 0 at power-on (R37). -/
@[simp] theorem State.powerOn_reg (p : Word) (q : Reg) : (State.powerOn p).reg q = 0 := by cases q <;> rfl

theorem State.powerOn_pair (p : Word) (q : Pair) : (State.powerOn p).pair q = 0 := by
  rw [State.pair, State.powerOn_reg, State.powerOn_reg]; rfl

theorem State.powerOn_flag (p : Word) (g : Flag) : (State.powerOn p).flag g = false :=
  (State.flag_eq _ g).trans BitVec.getLsbD_zero

/-- `init()` gives the registers of power-on, whatever they held (R241). -/
theorem init_reg (s : State) (q : Reg) : (init s).reg q = 0 := by cases q <;> rfl

/-- Settles O14: memory at reset is the empty list, and nothing has been returned. -/
theorem invariantHoldsAtReset : Obligations.InvariantHoldsAtReset := ⟨reset_mem_wf, rfl⟩

/-- Settles O47: the fields of `State.powerOn`, read through every accessor. -/
theorem powerOnState : Obligations.PowerOnState := by
  refine ⟨fun p => ⟨State.powerOn_reg p, State.powerOn_pair p, State.powerOn_flag p, rfl, rfl, fun x => rfl⟩, rfl,
    fun s => ⟨init_reg s, rfl, rfl, rfl⟩⟩

/-- Every bit position but the four of R27 is refused (R36). -/
theorem flagOfBit_of_ne {k : Nat} (hz : k ≠ 7) (hn : k ≠ 6) (hh : k ≠ 5) (hc : k ≠ 4) :
    flagOfBit k = .error (.notAFlag k) := by
  rw [flagOfBit, if_neg hz, if_neg hn, if_neg hh, if_neg hc]

/-- Settles O56: both calls go through `flagOfBit`. -/
theorem hostFlagAccess : Obligations.HostFlagAccess := by
  refine fun s b => ⟨⟨rfl, rfl, rfl, rfl⟩, ⟨rfl, rfl, rfl, rfl⟩, fun k hz hn hh hc => ?_⟩
  rw [getFlagBit, setFlagBit, flagOfBit_of_ne hz hn hh hc]
  exact ⟨rfl, rfl⟩

end Sys2Proof.Machine
end

section
/-! PROOF. What an instruction does to pc, the registers and the flags (R24, R25, R31), and that no flag it may not read
influences it (R29, R32). -/
namespace Sys2Proof.Machine

/-! ### pc and the registers -/

@[simp] theorem State.logic_sp (s : State) (op : LogicOp) (v : Byte) : (s.logic op v).sp = s.sp := rfl
@[simp] theorem State.logic_pc (s : State) (op : LogicOp) (v : Byte) : (s.logic op v).pc = s.pc := rfl
@[simp] theorem State.inc_sp (s : State) (r : R8) : (s.inc r).sp = s.sp := s.setR8_sp r _
@[simp] theorem State.inc_pc (s : State) (r : R8) : (s.inc r).pc = s.pc := s.setR8_pc r _

theorem State.withF_reg (s : State) (x : Byte) {q : Reg} (hf : q ≠ .f) : State.reg { s with f := x } q = s.reg q :=
  s.setReg_reg_of_ne x hf

/-- A logic operation writes A and F alone. -/
theorem State.logic_reg (s : State) (op : LogicOp) (v : Byte) {q : Reg} (ha : q ≠ .a) (hf : q ≠ .f) :
    (s.logic op v).reg q = s.reg q := by
  rw [State.logic_eq]
  exact ((s.setReg .a _).setReg_reg_of_ne _ hf).trans (s.setReg_reg_of_ne _ ha)

theorem State.setR8_reg_of_not_mem (s : State) {r : R8} {q : Reg} (v : Byte) (h : q ∉ [r.reg]) :
    (s.setR8 r v).reg q = s.reg q := s.setReg_reg_of_ne v (List.ne_of_not_mem_cons h)

/-- INC writes its register and F alone. -/
theorem State.inc_reg (s : State) {r : R8} {q : Reg} (hr : q ≠ r.reg) (hf : q ≠ .f) :
    (s.inc r).reg q = s.reg q := by
  rw [State.inc_eq]
  exact ((s.setR8 r _).setReg_reg_of_ne _ hf).trans (s.setReg_reg_of_ne _ hr)

/-- A form that is no transfer leaves pc after the instruction (R25). -/
theorem Form.result_pc {f : Form} (s : State) (h : f.transfers = false) :
    (Form.result s f).pc = s.pc + BitVec.ofNat 16 f.length := by
  cases f with
  | jp nn => cases h
  | jr cc e => cases h
  | call nn => cases h
  | _ => simp [Form.result, Form.length]

/-- A form that R24 does not name as a writer of sp keeps it. -/
theorem Form.result_sp {f : Form} (s : State) (h : f.writesSp = false) : (Form.result s f).sp = s.sp := by
  cases f with
  | ldSPNN nn => cases h
  | ldSPHL => cases h
  | call nn => cases h
  | jr cc e => rw [Form.result]; split <;> rfl
  | _ => simp [Form.result]

/-- A register other than F that R24 does not name for the form is kept. -/
theorem Form.result_reg {f : Form} (s : State) {q : Reg} (hf : q ≠ .f) (hq : q ∉ f.writes) :
    (Form.result s f).reg q = s.reg q := by
  cases f with
  | nop => exact s.after_reg 1 4 q
  | ldRN r n => exact (State.after_reg _ _ _ q).trans (s.setR8_reg_of_not_mem _ hq)
  | ldRR r r' => exact (State.after_reg _ _ _ q).trans (s.setR8_reg_of_not_mem _ hq)
  | ldRHL r => exact (State.after_reg _ _ _ q).trans (s.setR8_reg_of_not_mem _ hq)
  | ldAPtr p => exact (State.after_reg _ _ _ q).trans (s.setR8_reg_of_not_mem (r := .a) _ hq)
  | ldHLR r => rw [Form.result, State.after_reg, State.storeAt_reg]
  | ldPtrA p => rw [Form.result, State.after_reg, State.storeAt_reg]
  | ldPairNN p nn =>
    obtain ⟨hhi, hlo⟩ := List.ne_and_not_mem_of_not_mem_cons hq
    exact (State.after_reg _ _ _ q).trans (s.setPair_reg_of_ne nn hhi (List.ne_of_not_mem_cons hlo))
  | logicR op r => exact (State.after_reg _ _ _ q).trans (s.logic_reg op _ (List.ne_of_not_mem_cons hq) hf)
  | logicHL op => exact (State.after_reg _ _ _ q).trans (s.logic_reg op _ (List.ne_of_not_mem_cons hq) hf)
  | logicN op n => exact (State.after_reg _ _ _ q).trans (s.logic_reg op _ (List.ne_of_not_mem_cons hq) hf)
  | incR r => exact (State.after_reg _ _ _ q).trans (s.inc_reg (List.ne_of_not_mem_cons hq) hf)
  | cpl =>
    exact (State.after_reg _ _ _ q).trans
      ((State.withF_reg _ _ hf).trans (s.setReg_reg_of_ne (r := .a) _ (List.ne_of_not_mem_cons hq)))
  | ccf => exact (State.after_reg _ _ _ q).trans (s.withF_reg _ hf)
  | scf => exact (State.after_reg _ _ _ q).trans (s.withF_reg _ hf)
  | bit b r => exact (State.after_reg _ _ _ q).trans (s.withF_reg _ hf)
  | jr cc e =>
    rw [Form.result]
    split
    · cases q <;> rfl
    · exact s.after_reg 2 8 q
  | ldSPNN nn => cases q <;> rfl
  | ldSPHL => cases q <;> rfl
  | jp nn => cases q <;> rfl
  | call nn => cases q <;> rfl

/-- Settles O19: an instruction that answers fits, so pc plus its length does not wrap. -/
theorem onlyTransfersRedirectPc : Obligations.OnlyTransfersRedirectPc := by
  intro i s t htransfers h
  obtain ⟨hfits, -, rfl⟩ := exec_next h
  rw [Form.result_pc s htransfers, toNat_add_ofNat hfits]

/-! ### The flags after an instruction -/

/-- What the instructions' own rules compute for the flags R31 marks `*` (R150, R160, R200); false elsewhere. -/
def Form.computedFlag (s : State) : Form → Flag → Bool
  | .logicR op r, .z => logicResult op s.a (s.r8 r) == 0
  | .logicHL op, .z => logicResult op s.a (s.loadAt .hl) == 0
  | .logicN op n, .z => logicResult op s.a n == 0
  | .incR r, .z => s.r8 r + 1 == 0
  | .incR r, .h => s.r8 r &&& 0x0F == 0x0F
  | .bit b r, .z => !s.bitOf b r
  | _, _ => false

/-- The flag that a mark of R31 leaves, from the old flag and the computed one. -/
def markedFlag (old computed : Bool) : FlagEffect → Bool
  | .computed => computed
  | .cleared => false
  | .set => true
  | .kept => old
  | .inverted => !old

/-- A flag after a form, by its mark in R31's table. -/
def Form.newFlag (s : State) (f : Form) (g : Flag) : Bool :=
  markedFlag (s.flag g) (Form.computedFlag s f g) (f.flagEffect g)

/-- F after a form is one assignment of the flags R31 marks; the low nibble is kept (R29, R30). -/
theorem Form.result_f (s : State) (f : Form) :
    (Form.result s f).f =
      assignFlags s.f (Form.newFlag s f .z) (Form.newFlag s f .n) (Form.newFlag s f .h) (Form.newFlag s f .c) := by
  cases f with
  | logicR op r => cases op <;> exact congrArg State.f (s.logic_eq _ _)
  | logicHL op => cases op <;> exact congrArg State.f (s.logic_eq _ _)
  | logicN op n => cases op <;> exact congrArg State.f (s.logic_eq _ _)
  | incR r => exact congrArg State.f (s.inc_eq r)
  | cpl => rfl
  | ccf => rfl
  | scf => rfl
  | bit b r => rfl
  | ldRN r n => exact (s.setR8_f r n).trans s.assignFlags_own.symm
  | ldRR r r' => exact (s.setR8_f r _).trans s.assignFlags_own.symm
  | ldRHL r => exact (s.setR8_f r _).trans s.assignFlags_own.symm
  | ldPairNN p nn => exact (s.setPair_pairOp_f p nn).trans s.assignFlags_own.symm
  | jr cc e =>
    refine Eq.trans ?_ s.assignFlags_own.symm
    rw [Form.result]
    split <;> rfl
  | _ => exact s.assignFlags_own.symm

theorem Form.result_flag (s : State) (f : Form) (g : Flag) : (Form.result s f).flag g = Form.newFlag s f g := by
  rw [State.flag_eq, Form.result_f, assignFlags_flag _ (Form.newFlag s f)]

theorem Form.result_f_low (s : State) (f : Form) : (Form.result s f).f &&& 0x0F = s.f &&& 0x0F := by
  rw [Form.result_f, assignFlags_low]

theorem Form.newFlag_of_kept {f : Form} {g : Flag} (s : State) (h : f.flagEffect g = .kept) :
    Form.newFlag s f g = s.flag g := by
  rw [Form.newFlag, h, markedFlag]

theorem says_markedFlag (old computed : Bool) (m : FlagEffect) : m.says old (markedFlag old computed m) := by
  cases m with
  | computed => trivial
  | _ => rfl

theorem Form.flagEffect_says (s : State) (f : Form) (g : Flag) :
    (f.flagEffect g).says (s.flag g) ((Form.result s f).flag g) := by
  rw [Form.result_flag]
  exact says_markedFlag _ _ _

/-- A form whose four marks are `-` keeps F. -/
theorem Form.result_f_of_kept {f : Form} (s : State) (h : f.flagEffects = (.kept, .kept, .kept, .kept)) :
    (Form.result s f).f = s.f := by
  have hnew : Form.newFlag s f = s.flag := by
    funext g
    have hkept : f.flagEffect g = .kept := by cases g <;> rw [Form.flagEffect, h]
    exact Form.newFlag_of_kept s hkept
  rw [Form.result_f, hnew, State.assignFlags_own]

/-- Settles O20: the registers by form, sp by form, and F where the four marks of R31 keep it. -/
theorem registerWriters : Obligations.RegisterWriters := by
  intro i s t h
  obtain ⟨-, -, rfl⟩ := exec_next h
  exact ⟨fun q hf hq => Form.result_reg s hf hq, Form.result_sp s, Form.result_f_of_kept s⟩

/-- Settles O21: each flag of the form's result is what its mark says. -/
theorem flagEffectTable : Obligations.FlagEffectTable := by
  intro i s t h
  obtain ⟨-, -, rfl⟩ := exec_next h
  exact ⟨Form.flagEffect_says s _ .z, Form.flagEffect_says s _ .n, Form.flagEffect_says s _ .h,
    Form.flagEffect_says s _ .c, Form.result_f_low s _⟩

/-! ### Replacing F before an instruction -/

/-- A byte for F that agrees with the state on the flag the form reads, if it reads one (R32). -/
def Form.agreesOnRead (f : Form) (s : State) (x : Byte) : Prop :=
  ∀ g, f.readsFlag = some g → State.flag { s with f := x } g = s.flag g

theorem State.holds_withF {s : State} {x : Byte} {cc : Cond} {e : Int} (h : Form.agreesOnRead (.jr cc e) s x) :
    State.holds { s with f := x } cc = s.holds cc := by
  cases cc with
  | nz => exact congrArg not (h .z rfl)
  | z => exact h .z rfl
  | nc => exact congrArg not (h .c rfl)
  | c => exact h .c rfl

theorem Form.raises_withF {f : Form} {s : State} {x : Byte} (h : Form.agreesOnRead f s x) :
    Form.raises { s with f := x } f = Form.raises s f := by
  cases f with
  | jr cc e => rw [Form.raises, Form.raises, State.holds_withF h]; rfl
  | _ => rfl

theorem State.withF_r8 (s : State) (x : Byte) (r : R8) : State.r8 { s with f := x } r = s.r8 r :=
  s.withF_reg x (R8.reg_ne_f r)

theorem State.after_withoutF (s : State) (len n : Nat) : (s.after len n).withoutF = s.withoutF.after len n := rfl

theorem State.setR8_withF (s : State) (x : Byte) (r : R8) (v : Byte) :
    (State.setR8 { s with f := x } r v).withoutF = (s.setR8 r v).withoutF := by cases r <;> rfl

/-- Beside F, a logic operation is a write of A. -/
theorem State.logic_withoutF (s : State) (op : LogicOp) (v : Byte) :
    (s.logic op v).withoutF = { s with a := logicResult op s.a v }.withoutF := by
  rw [State.logic_eq]; rfl

/-- Beside F, INC is a write of its register. -/
theorem State.inc_withoutF (s : State) (r : R8) : (s.inc r).withoutF = (s.setR8 r (s.r8 r + 1)).withoutF := by
  rw [State.inc_eq]; rfl

theorem State.logic_withF (s : State) (x : Byte) (op : LogicOp) (v : Byte) :
    (State.logic { s with f := x } op v).withoutF = (s.logic op v).withoutF := by
  rw [State.logic_withoutF, State.logic_withoutF]; rfl

/-- Beside F itself, a form's result depends on F only through the flag it reads. -/
theorem Form.result_withF {f : Form} {s : State} {x : Byte} (h : Form.agreesOnRead f s x) :
    (Form.result { s with f := x } f).withoutF = (Form.result s f).withoutF := by
  cases f with
  | jr cc e =>
    rw [Form.result, Form.result, State.holds_withF h]
    split <;> rfl
  | ldRN r n => exact congrArg (State.after · 2 8) (s.setR8_withF x r n)
  | ldRR r r' =>
    rw [Form.result, Form.result, State.withF_r8]
    exact congrArg (State.after · 1 4) (s.setR8_withF x r _)
  | ldRHL r => exact congrArg (State.after · 1 8) (s.setR8_withF x r _)
  | ldHLR r =>
    rw [Form.result, Form.result, State.withF_r8]
    rfl
  | ldPtrA p => cases p <;> rfl
  | ldAPtr p => cases p <;> rfl
  | ldPairNN p nn => cases p <;> rfl
  | logicR op r =>
    rw [Form.result, Form.result, State.withF_r8]
    exact congrArg (State.after · 1 4) (s.logic_withF x op _)
  | logicHL op => exact congrArg (State.after · 1 8) (s.logic_withF x op _)
  | logicN op n => exact congrArg (State.after · 2 8) (s.logic_withF x op n)
  | incR r =>
    rw [Form.result, Form.result, State.after_withoutF, State.after_withoutF, State.inc_withoutF, State.inc_withoutF,
      State.withF_r8, State.setR8_withF]
  | _ => rfl

/-- No computed flag depends on F. -/
theorem Form.computedFlag_withF (f : Form) (s : State) (x : Byte) (g : Flag) :
    Form.computedFlag { s with f := x } f g = Form.computedFlag s f g := by
  cases f with
  | logicR op r => cases g <;> cases r <;> rfl
  | incR r => cases g <;> cases r <;> rfl
  | bit b r => cases g <;> cases r <;> rfl
  | _ => cases g <;> rfl

/-- The one flag a form inverts, C by CCF, is the flag it reads (R31, R32). -/
theorem Form.readsFlag_of_inverted {f : Form} {g : Flag} (h : f.flagEffect g = .inverted) : f.readsFlag = some g := by
  cases f with
  | ccf =>
    cases g with
    | c => rfl
    | _ => cases h
  | logicR op r => cases op <;> cases g <;> cases h
  | logicHL op => cases op <;> cases g <;> cases h
  | logicN op n => cases op <;> cases g <;> cases h
  | _ => cases g <;> cases h

/-- A flag that a form writes does not depend on the flags the form may not read (R32). -/
theorem Form.newFlag_withF {f : Form} {s : State} {x : Byte} {g : Flag} (h : Form.agreesOnRead f s x)
    (hw : f.flagEffect g ≠ .kept) : Form.newFlag { s with f := x } f g = Form.newFlag s f g := by
  rw [Form.newFlag, Form.newFlag, Form.computedFlag_withF]
  cases hm : f.flagEffect g with
  | kept => exact absurd hm hw
  | inverted => exact congrArg not (h g (Form.readsFlag_of_inverted hm))
  | _ => rfl

/-- Two states with the same pc, where a form raises the same and its results are related, give related answers. -/
theorem exec_related {i : Instr} {s t : State} {j k : State → State} (hpc : s.pc = t.pc)
    (hraises : Form.raises s i.form = Form.raises t i.form)
    (hresult : j (Form.result s i.form) = k (Form.result t i.form)) :
    mapNext j (exec i s) = mapNext k (exec i t) := by
  rw [exec_cases, exec_cases, hpc, hraises]
  split
  · cases Form.raises t i.form with
    | some a => rfl
    | none => exact congrArg Host.Outcome.next hresult
  · rfl

/-- Settles O22: an instruction's answer beside F, by form, and each flag by its mark in R31's table. -/
theorem flagReaders : Obligations.FlagReaders := by
  intro i s x h
  refine ⟨exec_related rfl (Form.raises_withF h) (Form.result_withF h), fun t u ht hu g => ?_⟩
  obtain ⟨-, -, rfl⟩ := exec_next ht
  obtain ⟨-, -, rfl⟩ := exec_next hu
  rw [Form.result_flag, Form.result_flag]
  exact ⟨Form.newFlag_withF h, Form.newFlag_of_kept _⟩

/-! ### Bits 3..0 of F -/

@[simp] theorem State.withLowF_pc (x : Byte) (s : State) : (s.withLowF x).pc = s.pc := rfl
@[simp] theorem State.withLowF_mem (x : Byte) (s : State) : (s.withLowF x).mem = s.mem := rfl

@[simp] theorem State.withLowF_flag (x : Byte) (s : State) (g : Flag) : (s.withLowF x).flag g = s.flag g := by
  rw [State.flag_eq, State.flag_eq, State.withLowF]
  cases g <;> simp [flagPos]

@[simp] theorem State.withLowF_low (x : Byte) (s : State) : (s.withLowF x).f &&& 0x0F = x &&& 0x0F := by
  rw [State.withLowF]
  apply byte_ext <;> simp

theorem State.eq_of_withoutF {s t : State} (h : s.withoutF = t.withoutF) (hf : s.f = t.f) : s = t := by
  have hs : s = { s.withoutF with f := s.f } := rfl
  rw [hs, h, hf]
  rfl

/-- No form reads the low nibble of F: replacing it commutes with the form (R29). -/
theorem Form.result_withLowF (f : Form) (s : State) (x : Byte) :
    Form.result (s.withLowF x) f = (Form.result s f).withLowF x := by
  have hread : Form.agreesOnRead f s (s.withLowF x).f := fun g _ => s.withLowF_flag x g
  refine State.eq_of_withoutF (Form.result_withF hread) (byte_eq_of_flags (fun g => ?_) ?_)
  · rw [← State.flag_eq, ← State.flag_eq, State.withLowF_flag, Form.result_flag, Form.result_flag, Form.newFlag,
      Form.newFlag, State.withLowF_flag]
    exact congrArg (fun c => markedFlag _ c _) (Form.computedFlag_withF f s _ g)
  · rw [Form.result_f_low, State.withLowF_low, State.withLowF_low]

theorem mapNext_id (r : Res) : mapNext id r = r := by cases r <;> rfl

theorem exec_withLowF (i : Instr) (s : State) (x : Byte) :
    exec i (s.withLowF x) = mapNext (State.withLowF x) (exec i s) := by
  have hread : Form.agreesOnRead i.form s (s.withLowF x).f := fun g _ => s.withLowF_flag x g
  rw [← mapNext_id (exec i (s.withLowF x))]
  exact exec_related rfl (Form.raises_withF hread) (Form.result_withLowF i.form s x)

/-- What a fetch finds, with a function applied to the state after bytes without a handler. -/
def Fetched.mapAfter (k : State → State) : Fetched → Fetched
  | .instr i => .instr i
  | .undefined bytes after => .undefined bytes (k after)
  | .fault e => .fault e

/-- A fetch reads pc and memory alone (R92). -/
theorem fetchInstr_withLowF (s : State) (x : Byte) :
    fetchInstr (s.withLowF x) = (fetchInstr s).mapAfter (State.withLowF x) := by
  rw [fetchInstr_eq, fetchInstr_eq, State.withLowF_pc, State.withLowF_mem]
  split_ifs
  · cases extendedTable (s.mem.byteAt (s.pc.toNat + 1)) <;> rfl
  · rfl
  · cases baseTable (s.mem.read8 s.pc) with
    | none => rfl
    | some row =>
      dsimp only
      split_ifs <;> rfl
  · rfl

theorem step_withLowF (s : State) (x : Byte) : step (s.withLowF x) = mapNext (State.withLowF x) (step s) := by
  rw [step, step, fetchInstr_withLowF]
  cases fetchInstr s with
  | instr i => exact exec_withLowF i s x
  | undefined bytes after => rfl
  | fault e => rfl

theorem step_f_low {s t : State} (h : step s = .next t) : t.f &&& 0x0F = s.f &&& 0x0F := by
  rcases step_next h with ⟨i, -, hx⟩ | ⟨-, -, -, rfl⟩ | ⟨-, -, -, rfl⟩
  · obtain ⟨-, -, rfl⟩ := exec_next hx
    exact Form.result_f_low s i.form
  · rfl
  · rfl

/-- Settles O16: every result assigns F with its low nibble kept, and fetch, fault and result commute with replacing
that nibble. -/
theorem lowFlagBitsKeptAndInert : Obligations.LowFlagBitsKeptAndInert :=
  ⟨fun _ _ => step_f_low, fun x s => step_withLowF s x, fun _ _ => rfl, fun _ _ => rfl, State.setFlag_low⟩

end Sys2Proof.Machine
end

section
/-! PROOF. A step is `exec` of what the window decodes to (R92, R242), and the byte store: its host accessors, its
canonical form, and what an instruction does to it (R60 to R70, R78). -/
namespace Sys2Proof

/-- The two ways bytes decode: ESCAPE with an entry of the extended table, or a base entry with its operands (R92). -/
theorem decode_cons_ok {b1 : Byte} {rest rest' : List Byte} {i : Instr} (h : decode (b1 :: rest) = .ok (i, rest')) :
    (b1 = Config.escape ∧ ∃ b2, rest = b2 :: rest' ∧ extendedTable b2 = some i) ∨
      (b1 ≠ Config.escape ∧ ∃ row, baseTable b1 = some row ∧ row.complete rest = .ok (i, rest')) := by
  rw [decode.eq_def] at h
  dsimp only at h
  by_cases he : b1 = Config.escape
  · rw [if_pos he] at h
    cases rest with
    | nil => cases h
    | cons b2 more =>
      dsimp only at h
      cases hx : extendedTable b2 with
      | none => rw [hx] at h; cases h
      | some j => rw [hx] at h; cases h; exact .inl ⟨he, b2, rfl, hx⟩
  · rw [if_neg he] at h
    cases hb : baseTable b1 with
    | none => rw [hb] at h; cases h
    | some row => rw [hb] at h; exact .inr ⟨he, row, rfl, h⟩

/-- An entry complete without operand bytes is an instruction of one byte (R91). -/
theorem Row.eq_op_of_complete_nil {row : Row} {i : Instr} {rest : List Byte} (h : row.complete [] = .ok (i, rest)) :
    row = .op i := by
  cases row with
  | op j => cases h; rfl
  | _ => cases h

/-- A byte that encodes an instruction by itself does so whatever bytes follow it. -/
theorem decode_cons_of_singleton {b : Byte} {i : Instr} (h : decode [b] = .ok (i, [])) (rest : List Byte) :
    decode (b :: rest) = .ok (i, rest) := by
  rcases decode_cons_ok h with ⟨-, b2, hnil, -⟩ | ⟨he, row, hb, hrow⟩
  · cases hnil
  · rw [decode.eq_def]
    dsimp only
    rw [if_neg he, hb, Row.eq_op_of_complete_nil hrow]
    rfl

end Sys2Proof

namespace Sys2Proof.Machine

/-! ### A step runs what the window decodes to -/

/-- The first byte a fetch can see is the byte at that address, and the others follow it. -/
theorem Memory.bytesFrom_eq_cons {m : Memory} {a n : Nat} {b : Byte} {rest : List Byte}
    (h : m.bytesFrom a (n + 1) = b :: rest) : b = m.byteAt a ∧ m.bytesFrom (a + 1) n = rest := by
  rw [Memory.bytesFrom] at h
  split at h
  · cases h; exact ⟨rfl, rfl⟩
  · cases h

/-- A base entry that the window's operand bytes complete is the instruction the fetch builds (R94). -/
theorem build_of_complete_bytesFrom {row : Row} {m : Memory} {a : Nat} {i : Instr} {rest : List Byte}
    (h : row.complete (m.bytesFrom a 2) = .ok (i, rest)) : i = row.build (m.byteAt a) (m.byteAt (a + 1)) := by
  cases hbytes : m.bytesFrom a 2 with
  | nil =>
    rw [hbytes] at h
    rw [Row.eq_op_of_complete_nil h]
    rfl
  | cons b2 more =>
    rw [hbytes] at h
    obtain ⟨rfl, hmore⟩ := Memory.bytesFrom_eq_cons hbytes
    cases row with
    | imm16 f =>
      cases more with
      | nil => cases h
      | cons b3 more' =>
        obtain ⟨rfl, -⟩ := Memory.bytesFrom_eq_cons hmore
        cases h
        rfl
    | _ => cases h; rfl

theorem step_of_fetchInstr {s : State} {i : Instr} (h : fetchInstr s = .instr i) : step s = exec i s := by
  rw [step, h]

/-- ESCAPE and a byte with an extended handler run it; without room for both, fetch and `exec` raise the same fault
(R92, R213). -/
theorem step_of_extended {s : State} {i : Instr} (he : s.mem.read8 s.pc = Config.escape)
    (hx : extendedTable (s.mem.byteAt (s.pc.toNat + 1)) = some i) : step s = exec i s := by
  obtain ⟨hlen, -, -⟩ := extendedTable_encodes hx
  by_cases hfits : s.fits 2
  · refine step_of_fetchInstr ?_
    rw [fetchInstr_eq, if_pos (Nat.le_of_succ_le hfits), if_pos he, if_pos hfits, hx]
  · rw [exec_over (hlen ▸ hfits), step_of_escape_not_fits he hfits]

/-- A byte with a base handler runs it with the operand bytes after it; without room for all of them, fetch and `exec`
raise the same fault (R92, R213). -/
theorem step_of_row {s : State} {row : Row} (he : s.mem.read8 s.pc ≠ Config.escape)
    (hb : baseTable (s.mem.read8 s.pc) = some row) :
    step s = exec (row.build (s.mem.byteAt (s.pc.toNat + 1)) (s.mem.byteAt (s.pc.toNat + 2))) s := by
  have hlen := Row.build_length (baseTable_encodes hb)
  by_cases hfits : s.fits row.length
  · have hpos : 1 ≤ row.length := by cases row <;> simp [Row.length]
    refine step_of_fetchInstr ?_
    rw [fetchInstr_eq, if_pos (le_trans (Nat.add_le_add_left hpos _) hfits), if_neg he, hb]
    exact if_pos hfits
  · rw [exec_over (by rwa [hlen]), step_of_row_not_fits he hb hfits]

/-- A step is `exec` of the instruction that the window decodes to (R242). -/
theorem step_of_window {s : State} {i : Instr} {rest : List Byte} (h : decode s.window = .ok (i, rest)) :
    step s = exec i s := by
  rw [State.window_eq_cons] at h
  rcases decode_cons_ok h with ⟨he, b2, hbytes, hx⟩ | ⟨he, row, hb, hrow⟩
  · obtain ⟨rfl, -⟩ := Memory.bytesFrom_eq_cons hbytes
    exact step_of_extended he hx
  · obtain rfl := build_of_complete_bytesFrom hrow
    exact step_of_row he hb

/-- The byte at pc, when it encodes an instruction by itself, is what the step runs (R78). -/
theorem step_of_byte_at_pc {s : State} {i : Instr} (h : decode [s.mem.read8 s.pc] = .ok (i, [])) :
    step s = exec i s := by
  refine step_of_window (rest := s.mem.bytesFrom (s.pc.toNat + 1) 2) ?_
  rw [State.window_eq_cons]
  exact decode_cons_of_singleton h _

/-! ### The canonical form -/

theorem Memory.wfFrom_cons {lo b : Nat} {v : Byte} {rest : Memory} :
    Memory.wfFrom lo ((b, v) :: rest) = true ↔
      lo ≤ b ∧ b < Config.memSize ∧ v ≠ 0 ∧ Memory.wfFrom (b + 1) rest = true := by
  simp only [Memory.wfFrom, Bool.and_eq_true, decide_eq_true_eq, and_assoc]

theorem Memory.byteAt_cons_same (b : Nat) (v : Byte) (rest : Memory) : Memory.byteAt ((b, v) :: rest) b = v :=
  if_pos rfl

theorem Memory.byteAt_cons_of_ne {a b : Nat} (v : Byte) (rest : Memory) (h : a ≠ b) :
    Memory.byteAt ((b, v) :: rest) a = rest.byteAt a := if_neg h

/-- A canonical memory that reads the non-zero byte of another's first cell at `b` lists a cell at or below `b`, so no
bound above `b` holds of it. -/
theorem Memory.le_head_of_reads {m rest : Memory} {lo lo' b : Nat} {v : Byte}
    (h : Memory.wfFrom lo ((b, v) :: rest) = true) (h' : m.wfFrom lo' = true)
    (hread : Memory.byteAt ((b, v) :: rest) b = m.byteAt b) : lo' ≤ b := by
  obtain ⟨-, -, hv, -⟩ := Memory.wfFrom_cons.mp h
  by_contra hlt
  rw [Memory.byteAt_cons_same, Memory.byteAt_below h' (by omega)] at hread
  exact hv hread

/-- Canonical memories that read the same at every number are the same list: their first cells agree, and so do the
rests, which read 0 at the first cell's address. -/
theorem Memory.eq_of_byteAt_eq {m m' : Memory} {lo : Nat} (h : m.wfFrom lo = true) (h' : m'.wfFrom lo = true)
    (hread : ∀ a, m.byteAt a = m'.byteAt a) : m = m' := by
  induction m generalizing lo m' with
  | nil =>
    cases m' with
    | nil => rfl
    | cons c rest' =>
      obtain ⟨b', v'⟩ := c
      have hle : b' + 1 ≤ b' := Memory.le_head_of_reads (m := []) h' rfl (hread b').symm
      omega
  | cons c rest ih =>
    obtain ⟨b, v⟩ := c
    cases m' with
    | nil =>
      have hle : b + 1 ≤ b := Memory.le_head_of_reads (m := []) h rfl (hread b)
      omega
    | cons c' rest' =>
      obtain ⟨b', v'⟩ := c'
      obtain ⟨-, hb, hv, hrest⟩ := Memory.wfFrom_cons.mp h
      obtain ⟨-, hb', hv', hrest'⟩ := Memory.wfFrom_cons.mp h'
      have hle : b' ≤ b :=
        Memory.le_head_of_reads h (Memory.wfFrom_cons.mpr ⟨le_refl b', hb', hv', hrest'⟩) (hread b)
      have hge : b ≤ b' :=
        Memory.le_head_of_reads h' (Memory.wfFrom_cons.mpr ⟨le_refl b, hb, hv, hrest⟩) (hread b').symm
      obtain rfl : b = b' := Nat.le_antisymm hge hle
      have hvv : v = v' := by simpa only [Memory.byteAt_cons_same] using hread b
      have htail : rest = rest' := by
        refine ih hrest hrest' fun a => ?_
        by_cases ha : a = b
        · rw [Memory.byteAt_below hrest (by omega), Memory.byteAt_below hrest' (by omega)]
        · simpa only [Memory.byteAt_cons_of_ne _ _ ha] using hread a
      rw [hvv, htail]

/-- Settles O57: canonical memories read 0 above the address space, so equal reads there and below fix the list. -/
theorem equalReadsMeanEqualMemory : Obligations.EqualReadsMeanEqualMemory := by
  intro m m' h h' hread
  refine Memory.eq_of_byteAt_eq h h' fun a => ?_
  by_cases ha : a < 65536
  · have hword := hread (BitVec.ofNat 16 a)
    rwa [Memory.read8, Memory.read8, BitVec.toNat_ofNat, Nat.mod_eq_of_lt ha] at hword
  · rw [Memory.byteAt_above h (Nat.le_of_not_lt ha), Memory.byteAt_above h' (Nat.le_of_not_lt ha)]

/-! ### The host's accessors -/

theorem Memory.read8_write8_same {m : Memory} (h : m.wf = true) (a : Word) (v : Byte) : (m.write8 a v).read8 a = v :=
  Memory.byteAt_setByte_same h _ v

theorem Memory.read8_write8_of_ne (m : Memory) {a x : Word} (v : Byte) (h : x ≠ a) :
    (m.write8 a v).read8 x = m.read8 x :=
  Memory.byteAt_setByte_other m v (BitVec.toNat_ne.mp h)

/-- Settles O53: a byte write sets one byte and never faults. -/
theorem byteAccessors : Obligations.ByteAccessors := fun s a v =>
  ⟨s.mem.write8 a v, rfl, fun h => Memory.read8_write8_same h a v, fun _ hx => s.mem.read8_write8_of_ne v hx,
    fun h => Memory.write8_wf h a v⟩

theorem toNat_succ_le_of_ne_top {a : Word} (h : a ≠ 0xFFFF) : a.toNat + 1 ≤ 0xFFFF := by
  have hne : a.toNat ≠ 0xFFFF := BitVec.toNat_ne.mp h
  have := a.isLt
  omega

theorem toNat_succ_of_ne_top {a : Word} (h : a ≠ 0xFFFF) : (a + 1).toNat = a.toNat + 1 :=
  toNat_add_ofNat (toNat_succ_le_of_ne_top h)

theorem ne_succ_of_ne_top {a : Word} (h : a ≠ 0xFFFF) : a ≠ a + 1 := by
  rw [BitVec.toNat_ne, toNat_succ_of_ne_top h]
  omega

/-- Below 0xFFFF a word read is two byte reads, low byte first (R64). -/
theorem Memory.readWord_of_ne_top (m : Memory) {a : Word} (h : a ≠ 0xFFFF) :
    m.readWord a = .ok (joinBytes (m.read8 (a + 1)) (m.read8 a)) := by
  have hfits := toNat_succ_le_of_ne_top h
  rw [Memory.readWord_eq, if_pos (by omega), Memory.read8, toNat_succ_of_ne_top h, Memory.read8]

/-- Below 0xFFFF a word write is two byte writes, low byte first (R65). -/
theorem Memory.writeWord_of_ne_top (m : Memory) {a : Word} (w : Word) (h : a ≠ 0xFFFF) :
    m.writeWord a w = .ok ((m.write8 a (loByte w)).write8 (a + 1) (hiByte w)) := by
  have hfits := toNat_succ_le_of_ne_top h
  rw [Memory.writeWord_eq, if_pos (by omega), Memory.write8, toNat_succ_of_ne_top h, Memory.write8]

/-- Settles O54: below 0xFFFF a word is two bytes, and the byte laws give the rest; at 0xFFFF it does not fit. -/
theorem wordAccessors : Obligations.WordAccessors := by
  refine fun s a w => ⟨fun ha => s.mem.readWord_of_ne_top ha, fun ha => ?_, ?_⟩
  · have hwrite := s.mem.writeWord_of_ne_top w ha
    refine ⟨_, by rw [hostWriteWord, hwrite, withMemory], fun hwf => ?_, fun x hx hx' => ?_⟩
    · have hwf' : (s.mem.write8 a (loByte w)).wf = true := Memory.write8_wf hwf a _
      have hlo : ((s.mem.write8 a (loByte w)).write8 (a + 1) (hiByte w)).read8 a = loByte w := by
        rw [Memory.read8_write8_of_ne _ _ (ne_succ_of_ne_top ha), Memory.read8_write8_same hwf]
      have hhi : ((s.mem.write8 a (loByte w)).write8 (a + 1) (hiByte w)).read8 (a + 1) = hiByte w :=
        Memory.read8_write8_same hwf' _ _
      refine ⟨by rw [hlo, toNat_loByte], by rw [hhi, toNat_hiByte], ?_⟩
      rw [hostReadWord, Memory.readWord_of_ne_top _ ha, hlo, hhi, joinBytes_hi_lo]
    · rw [Memory.read8_write8_of_ne _ _ hx', Memory.read8_write8_of_ne _ _ hx]
  · rintro rfl
    exact ⟨rfl, rfl⟩

/-- Settles O55: the block laws of `setBytes`, under the one range check. -/
theorem loadBlockCopiesOrFaults : Obligations.LoadBlockCopiesOrFaults := by
  intro s a bytes
  refine ⟨fun hle => ?_, fun hlt => ?_, ?_⟩
  · refine ⟨s.mem.setBytes a.toNat bytes, ?_, fun hwf x k hk hx => ?_, fun x hx => Memory.byteAt_setBytes_other _ hx⟩
    · rw [hostLoadBlock, Memory.loadBlock_eq, if_pos hle, withMemory]
    · rw [Memory.read8, hx]
      exact Memory.byteAt_setBytes_same hwf hle hk
  · rw [hostLoadBlock, Memory.loadBlock_eq, if_neg (by omega), withMemory]
  · have hle : a.toNat + ([] : List Byte).length ≤ 65536 := Nat.le_of_lt a.isLt
    rw [hostLoadBlock, Memory.loadBlock_eq, if_pos hle]
    rfl

/-! ### Memory after an instruction -/

@[simp] theorem State.logic_mem (s : State) (op : LogicOp) (v : Byte) : (s.logic op v).mem = s.mem := rfl
@[simp] theorem State.inc_mem (s : State) (r : R8) : (s.inc r).mem = s.mem := s.setR8_mem r _

/-- A form that R70 does not name as a store keeps memory as it is. -/
theorem Form.result_mem {f : Form} {s : State} (h : f.store s = none) : (Form.result s f).mem = s.mem := by
  cases f with
  | ldHLR r => cases h
  | ldPtrA p => cases h
  | call nn => cases h
  | jr cc e => rw [Form.result]; split <;> rfl
  | _ => simp [Form.result]

/-- Settles O23: such a form's result has the memory it found. -/
theorem memoryKeptByNonStoringForms : Obligations.MemoryKeptByNonStoringForms := by
  intro i s t hstore h x
  obtain ⟨-, -, rfl⟩ := exec_next h
  rw [Form.result_mem hstore]

/-- A CALL that does not fault has room below sp for its word (R186). -/
theorem two_le_sp_of_call {s : State} {nn : Word} (h : Form.raises s (.call nn) = none) : 2 ≤ s.sp.toNat := by
  by_contra hsp
  rw [Form.raises, if_neg hsp] at h
  cases h

/-- A storing form's result reads as before outside the bytes it stores. -/
theorem Form.result_read8_of_outside {f : Form} {s : State} {addr width : Nat} (hraises : Form.raises s f = none)
    (hstore : f.store s = some (addr, width)) {x : Word} (hx : x.toNat < addr ∨ addr + width ≤ x.toNat) :
    (Form.result s f).mem.read8 x = s.mem.read8 x := by
  cases f with
  | ldHLR r => cases hstore; exact Memory.byteAt_setByte_other _ _ (by omega)
  | ldPtrA p => cases hstore; exact Memory.byteAt_setByte_other _ _ (by omega)
  | call nn =>
    have hsp := two_le_sp_of_call hraises
    obtain ⟨-, -, hother⟩ := State.callMem_byteAt hsp
    cases hstore
    exact hother _ (by omega) (by omega)
  | _ => cases hstore

/-- Settles O24: the frame of a byte store and of CALL's push. -/
theorem memoryKeptOutsideStoredBytes : Obligations.MemoryKeptOutsideStoredBytes := by
  intro i s t addr width hstore h x hx
  obtain ⟨-, hraises, rfl⟩ := exec_next h
  exact Form.result_read8_of_outside hraises hstore hx

/-- Every form that raises nothing keeps the canonical form. -/
theorem Form.result_mem_wf {f : Form} {s : State} (hraises : Form.raises s f = none) (hwf : s.mem.wf = true) :
    (Form.result s f).mem.wf = true := by
  cases f with
  | ldHLR r => exact Memory.write8_wf hwf _ _
  | ldPtrA p => exact Memory.write8_wf hwf _ _
  | call nn => exact State.callMem_wf hwf (two_le_sp_of_call hraises)
  | _ => rw [Form.result_mem rfl]; exact hwf

/-! ### The invariant -/

theorem Returned.legal_cycles {n : Nat} (h : n ∈ [4, 8, 12, 16, 24]) : (Returned.cycles n).legal = true :=
  List.contains_iff_mem.mpr h

theorem Returned.legal_base {b : Byte} (start : Word) (he : b ≠ Config.escape) (hb : baseTable b = none) :
    (Returned.undefinedOpcode [b] start).legal = true := by
  rw [Returned.legal, hb]
  simpa using he

theorem Returned.legal_extended {b : Byte} (start : Word) (hb : extendedTable b = none) :
    (Returned.undefinedOpcode [Config.escape, b] start).legal = true := by
  rw [Returned.legal, hb]
  rfl

/-- An instruction that answers a next state keeps the canonical form and returns one of the five counts (R16). -/
theorem exec_inv {i : Instr} {s t : State} (hwf : s.mem.wf = true) (h : exec i s = .next t) : t.Inv := by
  obtain ⟨-, hraises, rfl⟩ := exec_next h
  refine ⟨Form.result_mem_wf hraises hwf, ?_⟩
  rw [Form.result_returned]
  exact Returned.legal_cycles (Form.cycles_mem i.form s)

/-- Settles O15: an instruction keeps the invariant, and bytes without a handler leave memory alone and are legal to
return. -/
theorem stepKeepsInvariant : Obligations.StepKeepsInvariant := by
  rintro s t ⟨hwf, -⟩ h
  rcases step_next h with ⟨i, -, hx⟩ | ⟨-, he, hb, rfl⟩ | ⟨-, -, hx, rfl⟩
  · exact exec_inv hwf hx
  · exact ⟨hwf, Returned.legal_base s.pc he hb⟩
  · exact ⟨hwf, Returned.legal_extended s.pc hx⟩

/-! ### A stored byte as the next instruction -/

/-- A byte stored just after a one-byte instruction is what the next step runs. -/
theorem step_after_storeAt {s : State} {j : Instr} {p : Pair} {v : Byte} (hwf : s.mem.wf = true)
    (haddr : s.pair p = s.pc + 1) (hj : decode [v] = .ok (j, [])) :
    step ((s.storeAt p v).after 1 8) = exec j ((s.storeAt p v).after 1 8) := by
  refine step_of_byte_at_pc ?_
  have hread : (s.mem.write8 (s.pair p) v).read8 (s.pc + 1) = v := haddr ▸ Memory.read8_write8_same hwf _ v
  exact (congrArg (fun b => decode [b]) hread).trans hj

/-- A CALL to the new top of its stack runs the low byte of the return address it pushed. -/
theorem step_after_call {s : State} {j : Instr} (hwf : s.mem.wf = true) (hsp : 2 ≤ s.sp.toNat)
    (hj : decode [loByte (s.pc + 3)] = .ok (j, [])) :
    step (Form.result s (.call (s.sp - 2))) = exec j (Form.result s (.call (s.sp - 2))) := by
  refine step_of_byte_at_pc ?_
  have hread : s.callMem.read8 (s.sp - 2) = loByte (s.pc + 3) := by
    obtain ⟨hlo, -, -⟩ := State.callMem_byteAt hsp
    rw [Memory.read8, toNat_sub_two hsp, hlo hwf]
  exact (congrArg (fun b => decode [b]) hread).trans hj

theorem step_next_of_window {s : State} {i : Instr} {f : Form} {rest : List Byte}
    (h : decode s.window = .ok (i, rest)) (hform : i.form = f) (hfits : s.fits f.length)
    (hraises : Form.raises s f = none) : step s = .next (Form.result s f) := by
  rw [step_of_window h, exec_cases, hform, if_pos hfits, hraises]

/-- Settles O25: the storing step answers its form's result, whose pc is where the stored byte reads back. -/
theorem storedByteIsFetchedNext : Obligations.StoredByteIsFetchedNext := by
  refine ⟨fun s i j r rest hwf hfits hi hform haddr hj => ?_, fun s i j p rest hwf hfits hi hform haddr hj => ?_,
    fun s j rest hwf hfits hsp hi hj => ?_⟩
  · exact ⟨_, step_next_of_window hi hform (Nat.le_of_succ_le hfits) rfl, step_after_storeAt hwf haddr hj⟩
  · exact ⟨_, step_next_of_window hi hform (Nat.le_of_succ_le hfits) rfl, step_after_storeAt hwf haddr hj⟩
  · exact ⟨_, step_next_of_window hi rfl hfits (if_pos hsp), step_after_call hwf hsp hj⟩

end Sys2Proof.Machine
end

section
/-! PROOF. The cell maps of R99 and R100 and the bit patterns of the encoder say the same; what the first byte of an
instruction fixes (R90 to R94, R101, R103, R201). -/
namespace Sys2Proof

/-! ### What decodes is an encoding -/

/-- A completed entry is well-formed, and its encoding is the entry's byte and the operands it read (R94). -/
theorem Row.encodes_of_complete {b : Byte} {row : Row} {i : Instr} {rest rest' : List Byte} (hrow : row.encodes b)
    (h : row.complete rest = .ok (i, rest')) : i.wf = true ∧ b :: rest = encode i ++ rest' := by
  cases row with
  | op j =>
    obtain ⟨-, hwf, henc⟩ := hrow
    cases h
    exact ⟨hwf, by rw [henc]; rfl⟩
  | imm8 f =>
    match rest with
    | n :: _ =>
      obtain ⟨-, hwf, henc⟩ := hrow n
      cases h
      exact ⟨hwf, by rw [henc]; rfl⟩
  | disp f =>
    match rest with
    | v :: _ =>
      obtain ⟨-, hwf, henc⟩ := hrow (sext16 v)
      cases h
      exact ⟨hwf.trans (dispInRange_sext16 v), by rw [henc, dispByte_sext16]; rfl⟩
  | imm16 f =>
    match rest with
    | lo :: hi :: _ =>
      obtain ⟨-, hwf, henc⟩ := hrow (joinBytes hi lo)
      cases h
      exact ⟨hwf, by rw [henc, loByte_joinBytes, hiByte_joinBytes]; rfl⟩

/-- Settles O2: each entry of the two tables encodes under its byte. -/
theorem encodeDecodeAgree : Obligations.EncodeDecodeAgree := by
  intro bytes i rest h
  cases bytes with
  | nil => cases h
  | cons b1 more =>
    rcases decode_cons_ok h with ⟨rfl, b2, rfl, hx⟩ | ⟨-, row, hb, hrow⟩
    · obtain ⟨-, hwf, henc⟩ := extendedTable_encodes hx
      exact ⟨hwf, by rw [henc]; rfl⟩
    · exact Row.encodes_of_complete (baseTable_encodes hb) hrow

/-! ### Every instruction stands in a table -/

/-- The instruction is one an entry answers, with some operand (R94). -/
def Row.yields (i : Instr) : Row → Prop
  | .op j => j = i
  | .imm8 f => ∃ n, f n = i
  | .disp f => ∃ e, f e = i
  | .imm16 f => ∃ nn, f nn = i

/-- Every instruction stands where its encoding says: a BIT in the extended map, any other in the base map (R99,
R100). -/
theorem Instr.in_tables (i : Instr) :
    (∃ b, encode i = [Config.escape, b] ∧ extendedTable b = some i) ∨
      ∃ b row, (encode i).head? = some b ∧ baseTable b = some row ∧ row.yields i := by
  cases i with
  | bit0B | bit0C | bit0D | bit0E | bit0H | bit0L | bit0A | bit1B | bit1C | bit1D | bit1E | bit1H | bit1L | bit1A
  | bit2B | bit2C | bit2D | bit2E | bit2H | bit2L | bit2A | bit3B | bit3C | bit3D | bit3E | bit3H | bit3L | bit3A
  | bit4B | bit4C | bit4D | bit4E | bit4H | bit4L | bit4A | bit5B | bit5C | bit5D | bit5E | bit5H | bit5L | bit5A
  | bit6B | bit6C | bit6D | bit6E | bit6H | bit6L | bit6A | bit7B | bit7C | bit7D | bit7E | bit7H | bit7L | bit7A =>
    exact .inl ⟨_, rfl, rfl⟩
  | ldBImm n | ldCImm n | ldDImm n | ldEImm n | ldHImm n | ldLImm n | ldAImm n | andImm n | xorImm n | orImm n =>
    exact .inr ⟨_, .imm8 _, rfl, rfl, n, rfl⟩
  | jrNZ e | jrZ e | jrNC e | jrC e => exact .inr ⟨_, .disp _, rfl, rfl, e, rfl⟩
  | ldBCImm16 nn | ldDEImm16 nn | ldHLImm16 nn | ldSPImm16 nn | jp nn | call nn =>
    exact .inr ⟨_, .imm16 _, rfl, rfl, nn, rfl⟩
  | _ => exact .inr ⟨_, .op _, rfl, rfl, rfl⟩

/-! ### Decoding an encoding -/

/-- After ESCAPE a byte with an extended handler is that handler's instruction (R92). -/
theorem decode_escape_some {b2 : Byte} {i : Instr} (hx : extendedTable b2 = some i) (rest : List Byte) :
    decode (Config.escape :: b2 :: rest) = .ok (i, rest) := by
  rw [decode.eq_def]
  dsimp only
  rw [if_pos rfl, hx]

/-- After ESCAPE a byte without an extended handler decodes to nothing (R101). -/
theorem decode_escape_none {b2 : Byte} (hx : extendedTable b2 = none) (rest : List Byte) :
    decode (Config.escape :: b2 :: rest) = .error (.noExtendedHandler b2) := by
  rw [decode.eq_def]
  dsimp only
  rw [if_pos rfl, hx]

theorem ne_escape_of_baseTable {b : Byte} {row : Row} (hb : baseTable b = some row) : b ≠ Config.escape := by
  rintro rfl
  cases baseTable_escape.symm.trans hb

/-- A byte with a base handler leaves the rest to its entry (R92). -/
theorem decode_of_baseTable {b : Byte} {row : Row} (hb : baseTable b = some row) (rest : List Byte) :
    decode (b :: rest) = row.complete rest := by
  rw [decode.eq_def]
  dsimp only
  rw [if_neg (ne_escape_of_baseTable hb), hb]

/-- An entry reads back the operand that the encoding of its instruction carries (R91, R94). -/
theorem decode_encode_of_yields {b : Byte} {row : Row} {i : Instr} (hb : baseTable b = some row)
    (hi : row.yields i) (hwf : i.wf = true) (rest : List Byte) : decode (encode i ++ rest) = .ok (i, rest) := by
  have hrow := baseTable_encodes hb
  cases row with
  | op j =>
    obtain rfl := hi
    obtain ⟨-, -, henc⟩ := hrow
    rw [henc]
    exact decode_of_baseTable hb rest
  | imm8 f =>
    obtain ⟨n, rfl⟩ := hi
    obtain ⟨-, -, henc⟩ := hrow n
    rw [henc]
    exact decode_of_baseTable hb (n :: rest)
  | disp f =>
    obtain ⟨e, rfl⟩ := hi
    obtain ⟨-, hrange, henc⟩ := hrow e
    rw [henc]
    refine (decode_of_baseTable hb (dispByte e :: rest)).trans ?_
    rw [Row.complete, sext16_dispByte (hrange.symm.trans hwf)]
  | imm16 f =>
    obtain ⟨nn, rfl⟩ := hi
    obtain ⟨-, -, henc⟩ := hrow nn
    rw [henc]
    refine (decode_of_baseTable hb (loByte nn :: hiByte nn :: rest)).trans ?_
    rw [Row.complete, joinBytes_hi_lo]

/-- Settles O1: every instruction stands in one of the tables, and each table decodes what its entries encode to. -/
theorem decodeEncodeAgree : Obligations.DecodeEncodeAgree := by
  intro i rest hwf
  rcases i.in_tables with ⟨b, henc, hx⟩ | ⟨b, row, -, hb, hi⟩
  · rw [henc]
    exact decode_escape_some hx rest
  · exact decode_encode_of_yields hb hi hwf rest

/-! ### Lengths -/

/-- The length that a first byte fixes, ESCAPE or a byte with a base handler (R90). -/
def opcodeLength (b : Byte) : Option Nat := if b = Config.escape then some 2 else (baseTable b).map Row.length

theorem opcodeLength_of_baseTable {b : Byte} {row : Row} (hb : baseTable b = some row) :
    opcodeLength b = some row.length := by
  rw [opcodeLength, if_neg (ne_escape_of_baseTable hb), hb]
  rfl

/-- What an entry yields has its length (R91). -/
theorem Row.length_of_yields {b : Byte} {row : Row} {i : Instr} (hrow : row.encodes b) (hi : row.yields i) :
    i.form.length = row.length := by
  cases row with
  | op j =>
    obtain rfl := hi
    exact hrow.1
  | imm8 f | disp f | imm16 f =>
    obtain ⟨x, rfl⟩ := hi
    exact (hrow x).1

/-- An instruction's first byte fixes its length (R90). -/
theorem Instr.opcodeLength_head (i : Instr) : (encode i).head?.bind opcodeLength = some i.form.length := by
  rcases i.in_tables with ⟨b, henc, hx⟩ | ⟨b, row, hhead, hb, hi⟩
  · obtain ⟨hlen, -, -⟩ := extendedTable_encodes hx
    rw [henc, hlen]
    rfl
  · rw [hhead, Row.length_of_yields (baseTable_encodes hb) hi]
    exact opcodeLength_of_baseTable hb

theorem Form.length_encode (f : Form) : f.encode.length = f.length := by cases f <;> rfl

theorem Form.length_bounds (f : Form) : 1 ≤ f.length ∧ f.length ≤ 3 := by cases f <;> simp [Form.length]

/-- Settles O6: the encodings are as long as their forms, and `Instr.opcodeLength_head` says what a first byte fixes. -/
theorem instructionLengths : Obligations.InstructionLengths := by
  refine ⟨fun i => ?_, fun i j h => ?_⟩
  · obtain ⟨hpos, hle⟩ := i.form.length_bounds
    refine ⟨i.form.length_encode, hpos, hle, fun he => ?_⟩
    have hlen := i.opcodeLength_head
    rw [he] at hlen
    exact (Option.some.inj hlen).symm
  · have hlen := i.opcodeLength_head
    rw [h, j.opcodeLength_head] at hlen
    exact (Option.some.inj hlen).symm

/-! ### The tables -/

/-- Settles O3: the look-up of each of the 256 bytes in either map, counted. -/
theorem handlerTableCounts : Obligations.HandlerTableCounts := by
  exact ⟨rfl, rfl, rfl⟩

/-- Settles O5: after ESCAPE only the extended table is asked, and it has no cell for ESCAPE. -/
theorem escapeSelectsTheExtendedTable : Obligations.EscapeSelectsTheExtendedTable :=
  ⟨baseTable_escape, fun _ rest _ hx => decode_escape_some hx rest, fun _ rest hx => decode_escape_none hx rest,
    decode_escape_none (b2 := Config.escape) rfl []⟩

/-- Settles O7: such a step is `Machine.step_of_window`. -/
theorem stepRunsDecodedInstruction : Obligations.StepRunsDecodedInstruction :=
  fun _ _ _ h => Machine.step_of_window h

end Sys2Proof
end

section
/-! PROOF. The loads: words of the encoding tables, and what each load of spec/40_loads.md answers (R120 to R130). -/
namespace Sys2Proof

/-- The encoding of an instruction's form, with any bytes after it, decodes to the instruction. -/
theorem decode_encode_of_form {i : Instr} {f : Form} (hform : i.form = f) (hwf : f.wf = true) (rest : List Byte) :
    decode (f.encode ++ rest) = .ok (i, rest) := by
  subst hform
  exact decodeEncodeAgree i rest hwf

/-- Bytes that the encoder writes for an instruction decode to it. -/
theorem decode_of_encode_eq {i : Instr} {bytes : List Byte} (henc : encode i = bytes) (hwf : i.wf = true) :
    decode bytes = .ok (i, []) := by
  rw [← henc, ← (encode i).append_nil]
  exact decodeEncodeAgree i [] hwf

/-- Settles O4: each of the words is what the encoder writes for the instruction. -/
theorem wordsFromTheEncodingTablesDecode : Obligations.WordsFromTheEncodingTablesDecode := by
  refine ⟨?_, ?_, ?_, ?_, ?_, ?_, ?_, ?_, ?_, ?_, ?_, ?_, ?_, ?_, ?_, ?_, ?_, ?_, ?_, ?_, ?_⟩
  all_goals exact decode_of_encode_eq rfl rfl

/-- LD rr,nn carries its word low byte first (R68, R128). -/
theorem Form.encode_ldPairNN (p : PairOp) (hi lo : Byte) :
    (Form.ldPairNN p (hi ++ lo)).encode = [0b00#2 ++ p.code ++ 0b0001#4, lo, hi] := by
  rw [← joinBytes, Form.encode, loByte_joinBytes, hiByte_joinBytes]

/-- LD SP,nn carries its word low byte first (R68, R129). -/
theorem Form.encode_ldSPNN (hi lo : Byte) : (Form.ldSPNN (hi ++ lo)).encode = [0b00110001, lo, hi] := by
  rw [← joinBytes, Form.encode, loByte_joinBytes, hiByte_joinBytes]

end Sys2Proof

namespace Sys2Proof.Machine

/-! ### What a form that raises nothing answers -/

/-- An instruction whose form raises nothing answers the form's result, or the end-of-memory fault. -/
theorem exec_of_form {i : Instr} {f : Form} (hform : i.form = f) (hraises : ∀ s, Form.raises s f = none) (s : State) :
    (s.fits f.length → exec i s = .next (Form.result s f)) ∧ (¬s.fits f.length → exec i s = endOfMemory) := by
  subst hform
  exact ⟨fun hfits => by rw [exec_cases, if_pos hfits, hraises], exec_over⟩

/-- An instruction that fits and whose form raises answers the fault (R213). -/
theorem exec_of_raises {i : Instr} {s : State} {a : Int} (hfits : s.fits i.form.length)
    (h : Form.raises s i.form = some a) : exec i s = .fault (.outOfRangeAddress a) := by
  rw [exec_cases, if_pos hfits, h]

/-! ### Loads into registers -/

/-- Settles O27: the form's encoding and its result. -/
theorem ldRegImm : Obligations.LdRegImm := fun _ _ _ hform =>
  ⟨decode_encode_of_form hform rfl, exec_of_form hform fun _ => rfl⟩

/-- Copying a register to itself changes nothing (R121). -/
theorem State.setR8_own (s : State) (r : R8) : s.setR8 r (s.r8 r) = s := by cases r <;> rfl

/-- Settles O28: the form's encoding and its result, which for `r = r'` is a write of the register's own value. -/
theorem ldRegReg : Obligations.LdRegReg := by
  intro i r r' hform
  refine ⟨decode_encode_of_form hform rfl, fun s => ?_⟩
  obtain ⟨hnext, hover⟩ := exec_of_form hform (fun _ => rfl) s
  refine ⟨hnext, fun hfits hr => ?_, hover⟩
  have hself : Form.result s (.ldRR r r') = s.after 1 4 := by rw [← hr, Form.result, State.setR8_own]
  rw [← hself]
  exact hnext hfits

/-- Settles O29: the form's encoding and its result. -/
theorem ldRegFromHL : Obligations.LdRegFromHL := fun _ _ hform =>
  ⟨decode_encode_of_form hform rfl, exec_of_form hform fun _ => rfl⟩

/-- Settles O31: the two forms' encodings and results. -/
theorem ldAFromPointer : Obligations.LdAFromPointer := by
  refine ⟨decode_encode_of_form (i := .ldAAtBC) rfl rfl, decode_encode_of_form (i := .ldAAtDE) rfl rfl, fun s => ?_⟩
  obtain ⟨hbc, hbcOver⟩ := exec_of_form (i := .ldAAtBC) rfl (fun _ => rfl) s
  obtain ⟨hde, hdeOver⟩ := exec_of_form (i := .ldAAtDE) rfl (fun _ => rfl) s
  exact ⟨hbc, hde, fun hover => ⟨hbcOver hover, hdeOver hover⟩⟩

/-! ### Stores -/

/-- A fetch at pc finds the byte at pc first. -/
theorem State.window_head? (s : State) : s.window.head? = some (s.mem.read8 s.pc) := by
  rw [State.window_eq_cons, List.head?_cons]

/-- A memory with one byte written: the byte reads back there, a fetch there finds it, and every other address reads as
before (R63, R78). -/
theorem Memory.write8_seen (m : Memory) (addr : Word) (v : Byte) :
    (m.wf = true → (m.write8 addr v).read8 addr = v) ∧
    (m.wf = true → ∀ t : State, t.mem = m.write8 addr v → t.pc = addr → t.window.head? = some v) ∧
    ∀ x : Word, x ≠ addr → (m.write8 addr v).read8 x = m.read8 x := by
  refine ⟨fun hwf => Memory.read8_write8_same hwf addr v, fun hwf t hmem hpc => ?_,
    fun x hx => Memory.read8_write8_of_ne m v hx⟩
  rw [State.window_head?, hmem, hpc, Memory.read8_write8_same hwf]

/-- Settles O30: the form's encoding, and its result, which writes the one byte at HL. -/
theorem ldHLFromReg : Obligations.LdHLFromReg := by
  intro i r hform
  refine ⟨decode_encode_of_form hform rfl, fun s => ?_⟩
  obtain ⟨hnext, hover⟩ := exec_of_form hform (fun _ => rfl) s
  exact ⟨fun hfits => ⟨_, hnext hfits, s.mem.write8_seen (s.pair .hl) (s.r8 r)⟩, hover⟩

/-- Settles O32: the two forms' encodings, and their results, which write the one byte at the pair. -/
theorem ldPointerFromA : Obligations.LdPointerFromA := by
  refine ⟨decode_encode_of_form (i := .ldAtBCA) rfl rfl, decode_encode_of_form (i := .ldAtDEA) rfl rfl, fun s => ?_⟩
  obtain ⟨hbc, hbcOver⟩ := exec_of_form (i := .ldAtBCA) rfl (fun _ => rfl) s
  obtain ⟨hde, hdeOver⟩ := exec_of_form (i := .ldAtDEA) rfl (fun _ => rfl) s
  exact ⟨fun hfits => ⟨_, hbc hfits, s.mem.write8_seen (s.pair .bc) s.a⟩,
    fun hfits => ⟨_, hde hfits, s.mem.write8_seen (s.pair .de) s.a⟩,
    fun hover => ⟨hbcOver hover, hdeOver hover⟩⟩

/-! ### Word loads -/

/-- A pair that takes `hi ++ lo` takes `hi` in its high register and `lo` in its low one (R22). -/
theorem State.setPair_append (s : State) (p : Pair) (hi lo : Byte) :
    s.setPair p (hi ++ lo) = (s.setReg p.hi hi).setReg p.lo lo := by
  rw [← joinBytes, State.setPair, hiByte_joinBytes, loByte_joinBytes]

/-- Settles O33: the form's encoding, low byte first, and its result, one register write for each half of the word. -/
theorem ldPairImm : Obligations.LdPairImm := by
  intro i p lo hi hform
  refine ⟨fun rest => ?_, fun s => ?_⟩
  · have hdecode := decode_encode_of_form hform rfl rest
    rwa [Form.encode_ldPairNN] at hdecode
  · rw [← State.setPair_append]
    exact exec_of_form hform (fun _ => rfl) s

/-- A CALL that fits with sp below 2 faults with sp - 2 (R186). -/
theorem exec_call_of_sp_lt {t : State} (target : Word) (hfits : t.fits 3) (hsp : t.sp.toNat < 2) :
    exec (.call target) t = .fault (.outOfRangeAddress ((t.sp.toNat : Int) - 2)) :=
  exec_of_raises hfits (if_neg (Nat.not_le.mpr hsp))

/-- Settles O34: the form's encoding, low byte first, its result, and `exec_call_of_sp_lt` for the later CALL. -/
theorem ldSpImm : Obligations.LdSpImm := by
  refine fun lo hi => ⟨fun rest => ?_, fun s nn => ?_⟩
  · have hdecode := decode_encode_of_form (i := .ldSPImm16 (hi ++ lo)) (f := .ldSPNN (hi ++ lo)) rfl rfl rest
    rwa [Form.encode_ldSPNN] at hdecode
  · obtain ⟨hnext, hover⟩ := exec_of_form (i := .ldSPImm16 nn) rfl (fun _ => rfl) s
    refine ⟨hnext, hover, ?_⟩
    rintro t target rfl hsp hfits
    exact exec_call_of_sp_lt target hfits hsp

/-- Settles O35: the form's encoding and its result. -/
theorem ldSpFromHL : Obligations.LdSpFromHL :=
  ⟨decode_encode_of_form (i := .ldSPHL) rfl rfl, exec_of_form (i := .ldSPHL) rfl fun _ => rfl⟩

end Sys2Proof.Machine
end

section
/-! PROOF. The logic, increment, flag and no-op instructions of spec/41_alu.md: the words that decode to each and what it
answers (R150 to R164). -/
namespace Sys2Proof.Machine

/-! ### Logic -/

/-- Settles O36: the form's encoding, and its result, which is `Logic(op, x[r])`. -/
theorem logicRegister : Obligations.LogicRegister := by
  refine ⟨fun x v => ⟨rfl, rfl, rfl⟩, fun i op r hform => ⟨decode_encode_of_form hform rfl, fun s => ?_⟩⟩
  rw [← State.logic_eq]
  exact exec_of_form hform (fun _ => rfl) s

/-- Settles O37: for each operation the form's encoding, and its result, which is `Logic(op, mem[HL])`. -/
theorem logicMemory : Obligations.LogicMemory := by
  refine fun i op hform => ⟨fun rest => ?_, fun s => ?_⟩
  · cases op with
    | and | or | xor => exact decode_encode_of_form hform rfl rest
  · rw [← State.logic_eq]
    exact exec_of_form hform (fun _ => rfl) s

/-- Settles O38: the form's encoding, and its result, which is `Logic(op, n)`. -/
theorem logicImmediate : Obligations.LogicImmediate := by
  refine fun i op n hform => ⟨decode_encode_of_form hform rfl, fun s => ?_⟩
  rw [← State.logic_eq]
  exact exec_of_form hform (fun _ => rfl) s

/-! ### Increment -/

/-- The mask of a byte's low nibble is its remainder by 16 (R11). -/
theorem toNat_and_lowNibble (x : Byte) : (x &&& 0x0F).toNat = x.toNat % 16 := by
  rw [BitVec.toNat_and]
  exact Nat.and_two_pow_sub_one_eq_mod x.toNat 4

/-- INC's half carry: the low nibble of the old value is full (R160). -/
theorem lowNibble_full (x : Byte) : (x &&& 0x0F == 0x0F) = (x.toNat % 16 == 15) := by
  rw [Bool.eq_iff_iff, beq_iff_eq, beq_iff_eq, BitVec.toNat_eq, toNat_and_lowNibble]
  rfl

/-- Settles O39: the form's encoding, and its result, in which the byte one more modulo 256 is `new`. -/
theorem incRegister : Obligations.IncRegister := by
  refine fun i r hform => ⟨decode_encode_of_form hform rfl, fun s new hnew => ?_⟩
  have hinc : s.r8 r + 1 = new := BitVec.eq_of_toNat_eq ((BitVec.toNat_add _ _).trans hnew.symm)
  rw [← lowNibble_full, ← hinc, ← State.inc_eq]
  exact exec_of_form hform (fun _ => rfl) s

/-! ### No operation, complement and carry -/

/-- Settles O26: the form's encoding and its result. -/
theorem nopAdvancesPc : Obligations.NopAdvancesPc :=
  ⟨decode_encode_of_form (i := .nop) rfl rfl, exec_of_form (i := .nop) rfl fun _ => rfl⟩

/-- Settles O40: the form's encoding and its result, the complement written as an exclusive or with ones. -/
theorem cplComplementsA : Obligations.CplComplementsA := by
  refine ⟨decode_encode_of_form (i := .cpl) rfl rfl, fun s => ?_⟩
  have hones : 0xFF ^^^ s.a = ~~~ s.a := BitVec.allOnes_xor
  rw [hones]
  exact exec_of_form (i := .cpl) rfl (fun _ => rfl) s

/-- Settles O41: the form's encoding and its result. -/
theorem ccfInvertsCarry : Obligations.CcfInvertsCarry :=
  ⟨decode_encode_of_form (i := .ccf) rfl rfl, exec_of_form (i := .ccf) rfl fun _ => rfl⟩

/-- Settles O42: the form's encoding and its result. -/
theorem scfSetsCarry : Obligations.ScfSetsCarry :=
  ⟨decode_encode_of_form (i := .scf) rfl rfl, exec_of_form (i := .scf) rfl fun _ => rfl⟩

end Sys2Proof.Machine
end

section
/-! PROOF. The control transfers of spec/42_control.md: the words that decode to each and what it answers (R180 to
R187). -/
namespace Sys2Proof

/-- JP nn carries its word low byte first (R68, R180). -/
theorem Form.encode_jp (hi lo : Byte) : (Form.jp (hi ++ lo)).encode = [0b11000011, lo, hi] := by
  rw [← joinBytes, Form.encode, loByte_joinBytes, hiByte_joinBytes]

/-- CALL nn carries its word low byte first (R68, R186). -/
theorem Form.encode_call (hi lo : Byte) : (Form.call (hi ++ lo)).encode = [0b11001101, lo, hi] := by
  rw [← joinBytes, Form.encode, loByte_joinBytes, hiByte_joinBytes]

/-- JR carries its displacement as the byte that is its two's complement (R94). -/
theorem Form.encode_jr (cc : Cond) (b : Byte) :
    (Form.jr cc b.toInt).encode = [0b001#3 ++ cc.code ++ 0b000#3, b] := by
  rw [← sext16_eq_toInt, Form.encode, dispByte_sext16]

/-- A displacement read from a byte is in range (R94). -/
theorem Form.wf_jr (cc : Cond) (b : Byte) : (Form.jr cc b.toInt).wf = true := by
  rw [← sext16_eq_toInt]
  exact dispInRange_sext16 b

end Sys2Proof

namespace Sys2Proof.Machine

/-- An instruction that fits and whose form raises nothing answers the form's result. -/
theorem exec_of_raises_none {i : Instr} {s : State} (hfits : s.fits i.form.length)
    (h : Form.raises s i.form = none) : exec i s = .next (Form.result s i.form) := by
  rw [exec_cases, if_pos hfits, h]

/-! ### JR -/

/-- The conditions of JR are bits 7 and 4 of F (R27, R182 to R185). -/
theorem State.holds_eq_bits (s : State) :
    s.holds .nz = !s.f.getLsbD 7 ∧ s.holds .z = s.f.getLsbD 7 ∧
    s.holds .nc = !s.f.getLsbD 4 ∧ s.holds .c = s.f.getLsbD 4 :=
  ⟨congrArg not (s.flag_eq .z), s.flag_eq .z, congrArg not (s.flag_eq .c), s.flag_eq .c⟩

/-- A JR that is not taken raises nothing, whatever its target (R181). -/
theorem Form.raises_jr_of_not_holds {s : State} {cc : Cond} (e : Int) (h : s.holds cc = false) :
    Form.raises s (.jr cc e) = none :=
  if_neg fun ⟨hholds, _⟩ => Bool.false_ne_true (h.symm.trans hholds)

/-- A JR whose target is an address raises nothing (R181). -/
theorem Form.raises_jr_of_target {s : State} (cc : Cond) {e : Int} {target : Word}
    (h : (target.toNat : Int) = s.jrTarget e) : Form.raises s (.jr cc e) = none := by
  have hlt := target.isLt
  exact if_neg fun ⟨_, hout⟩ => by omega

theorem Form.result_jr_of_not_holds {s : State} {cc : Cond} (e : Int) (h : s.holds cc = false) :
    Form.result s (.jr cc e) = s.after 2 8 := by
  rw [Form.result, h]
  rfl

theorem Form.result_jr_of_holds {s : State} {cc : Cond} {e : Int} {target : Word}
    (htarget : (target.toNat : Int) = s.jrTarget e) (h : s.holds cc = true) :
    Form.result s (.jr cc e) = { s with pc := target, returned := some (.cycles 12) } := by
  rw [Form.result, if_pos h, ← htarget, BitVec.ofInt_natCast, BitVec.ofNat_toNat, BitVec.setWidth_eq]

/-- Settles O44: the form's encoding, and by condition and target its result or what it raises. -/
theorem jrRelative : Obligations.JrRelative := by
  refine ⟨State.holds_eq_bits, fun i cc e hform => ⟨?_, fun s => ⟨fun hfits hnot => ?_, ?_, ?_, ?_⟩⟩⟩
  · rintro b rest rfl
    have hdecode := decode_encode_of_form hform (Form.wf_jr cc b) rest
    rwa [Form.encode_jr] at hdecode
  · rw [exec_of_raises_none (hform ▸ hfits) (hform ▸ Form.raises_jr_of_not_holds e hnot), hform,
      Form.result_jr_of_not_holds e hnot]
  · intro target htarget hfits hholds
    rw [exec_of_raises_none (hform ▸ hfits) (hform ▸ Form.raises_jr_of_target cc htarget), hform,
      Form.result_jr_of_holds htarget hholds]
  · intro hfits hholds hout
    exact exec_of_raises (hform ▸ hfits) (hform ▸ if_pos ⟨hholds, hout⟩)
  · exact fun hover => exec_over (hform ▸ hover)

/-! ### JP -/

theorem State.fits_three_iff {s : State} : s.fits 3 ↔ s.pc.toNat < 0xFFFD := by
  rw [State.fits]
  omega

theorem State.not_fits_three_iff {s : State} : ¬s.fits 3 ↔ 0xFFFD ≤ s.pc.toNat := by
  rw [State.fits_three_iff, Nat.not_lt]

/-- Settles O43: the form's encoding, low byte first, and its result. -/
theorem jpAbsolute : Obligations.JpAbsolute := by
  refine fun lo hi => ⟨fun rest => ?_, fun s nn => ?_⟩
  · have hdecode := decode_encode_of_form (i := .jp (hi ++ lo)) (f := .jp (hi ++ lo)) rfl rfl rest
    rwa [Form.encode_jp] at hdecode
  · rw [← State.fits_three_iff, ← State.not_fits_three_iff]
    exact exec_of_form (i := .jp nn) rfl (fun _ => rfl) s

/-! ### CALL -/

/-- CALL's memory by address: the return address at the new sp, low byte first, and all else as before (R186). -/
theorem State.callMem_read8 {s : State} (hsp : 2 ≤ s.sp.toNat) :
    (s.mem.wf = true → s.callMem.read8 (s.sp - 2) = loByte (s.pc + 3)) ∧
    (s.mem.wf = true → s.callMem.read8 (s.sp - 1) = hiByte (s.pc + 3)) ∧
    ∀ x : Word, x ≠ s.sp - 2 → x ≠ s.sp - 1 → s.callMem.read8 x = s.mem.read8 x := by
  obtain ⟨hlo, hhi, hother⟩ := State.callMem_byteAt hsp
  have htwo := toNat_sub_two hsp
  have hone : (s.sp - 1).toNat = s.sp.toNat - 1 := BitVec.toNat_sub_of_le (Nat.le_of_succ_le hsp)
  refine ⟨fun hwf => ?_, fun hwf => ?_, fun x hx hx' => ?_⟩
  · rw [Memory.read8, htwo, hlo hwf]
  · rw [Memory.read8, hone, hhi hwf]
  · rw [BitVec.toNat_ne, htwo] at hx
    rw [BitVec.toNat_ne, hone] at hx'
    exact hother x.toNat hx hx'

/-- Below 0xFFFF a fetch sees the byte at pc and the byte after it. -/
theorem State.window_take_two {t : State} (h : t.pc ≠ 0xFFFF) :
    t.window.take 2 = [t.mem.read8 t.pc, t.mem.read8 (t.pc + 1)] := by
  have hle := toNat_succ_le_of_ne_top h
  rw [State.window_eq, if_pos (by omega), Memory.read8, Memory.read8, toNat_succ_of_ne_top h]
  rfl

/-- The new sp of a CALL leaves room for the byte after it (R186). -/
theorem sub_two_ne_top {w : Word} (h : 2 ≤ w.toNat) : w - 2 ≠ 0xFFFF := by
  have hlt := w.isLt
  rw [BitVec.toNat_ne, toNat_sub_two h]
  exact Nat.ne_of_lt (by omega : w.toNat - 2 < 0xFFFF)

/-- Settles O45: the form's encoding, low byte first; its result, whose memory `State.callMem_read8` gives by address; and
`exec_call_of_sp_lt` for the stack fault. -/
theorem callPushesReturnAddress : Obligations.CallPushesReturnAddress := by
  refine fun lo hi => ⟨fun rest => ?_, fun s nn => ?_⟩
  · have hdecode := decode_encode_of_form (i := .call (hi ++ lo)) (f := .call (hi ++ lo)) rfl rfl rest
    rwa [Form.encode_call] at hdecode
  · rw [← State.fits_three_iff, ← State.not_fits_three_iff]
    refine ⟨fun hfits hsp => ?_, fun hfits hsp => exec_call_of_sp_lt nn hfits hsp, exec_over (i := .call nn)⟩
    have hret : (s.pc + 3).toNat = s.pc.toNat + 3 := toNat_add_ofNat hfits
    obtain ⟨hlo, hhi, hother⟩ := State.callMem_read8 hsp
    refine ⟨s.callMem, exec_of_raises_none (i := .call nn) hfits (if_pos hsp), fun hwf => ?_, fun hwf => ?_,
      fun _ t hmem hpc => ?_, hother⟩
    · rw [hlo hwf, toNat_loByte, hret]
    · rw [hhi hwf, toNat_hiByte, hret]
    · have hsucc : s.sp - 2 + 1 = s.sp - 1 := by bv_omega
      rw [State.window_take_two (hpc ▸ sub_two_ne_top hsp), hmem, hpc, hsucc]

end Sys2Proof.Machine
end

section
/-! PROOF. The bit test of spec/43_bit.md: the word that decodes to it and what it answers (R200). -/
namespace Sys2Proof.Machine

/-- Settles O46: the form's encoding, ESCAPE first, and its result, in which the bit tested is bit `b` of the register. -/
theorem bitTest : Obligations.BitTest := fun _ _ _ hform =>
  ⟨decode_encode_of_form hform rfl, exec_of_form hform fun _ => rfl⟩

end Sys2Proof.Machine
end

section
/-! PROOF. Exceptions of single steps and instructions: bytes without a handler, and where an instruction faults or
completes (R211, R213, R220). -/
namespace Sys2Proof.Machine

/-! ### UndefinedOpcode -/

/-- Below 0xFFFF the byte a fetch reads second is the byte at pc + 1. -/
theorem State.read8_pc_succ {s : State} (hfits : s.fits 1) :
    s.mem.read8 (s.pc + 1) = s.mem.byteAt (s.pc.toNat + 1) :=
  congrArg s.mem.byteAt (toNat_add_ofNat (n := 1) hfits)

/-- A byte that is not ESCAPE and has no base handler is recorded, with pc past it (R211). -/
theorem step_of_no_base_handler {s : State} (hfits : s.fits 1) (he : s.mem.read8 s.pc ≠ Config.escape)
    (hb : baseTable (s.mem.read8 s.pc) = none) :
    step s = .next { s with pc := s.pc + 1, returned := some (.undefinedOpcode [s.mem.read8 s.pc] s.pc) } := by
  rw [step, fetchInstr_eq, if_pos hfits, if_neg he, hb]
  rfl

/-- ESCAPE and a byte without an extended handler are recorded, with pc past both (R211). -/
theorem step_of_no_extended_handler {s : State} (hfits : s.fits 2) (he : s.mem.read8 s.pc = Config.escape)
    (hx : extendedTable (s.mem.read8 (s.pc + 1)) = none) :
    step s = .next { s with
      pc := s.pc + 2
      returned := some (.undefinedOpcode [Config.escape, s.mem.read8 (s.pc + 1)] s.pc) } := by
  have hfits1 : s.fits 1 := Nat.le_of_succ_le hfits
  rw [State.read8_pc_succ hfits1] at hx ⊢
  rw [step, fetchInstr_eq, if_pos hfits1, if_pos he, if_pos hfits, hx]
  rfl

/-- Settles O8: the two lookups that find no handler; an instruction returns its count of R250's table instead. -/
theorem undefinedOpcodeOutcome : Obligations.UndefinedOpcodeOutcome := by
  refine ⟨?_, ?_, fun i s t bytes start hx hret => ?_⟩
  · rintro s _ hfits rfl he hb
    exact step_of_no_base_handler hfits he hb
  · rintro s _ hfits he rfl hx
    exact step_of_no_extended_handler hfits he hx
  · rw [exec_returned hx] at hret
    cases hret

/-! ### Where an instruction faults and where it completes -/

/-- An instruction faults exactly when it does not fit or its form raises (R213). -/
theorem exec_eq_fault_iff {i : Instr} {s : State} {a : Int} : exec i s = .fault (.outOfRangeAddress a) ↔
    (¬s.fits i.form.length ∧ a = 0x10000) ∨ (s.fits i.form.length ∧ Form.raises s i.form = some a) := by
  constructor
  · intro h
    rcases exec_fault h with ⟨hfits, heq⟩ | ⟨hfits, b, hraises, heq⟩
    · cases heq
      exact .inl ⟨hfits, rfl⟩
    · cases heq
      exact .inr ⟨hfits, hraises⟩
  · rintro (⟨hfits, rfl⟩ | ⟨hfits, hraises⟩)
    · exact exec_over hfits
    · exact exec_of_raises hfits hraises

/-- Settles O10: `exec_eq_fault_iff`, with the two forms that raise named. -/
theorem instructionFaultsExactlyAsTabled : Obligations.InstructionFaultsExactlyAsTabled := fun i s a => by
  rw [exec_eq_fault_iff, Form.raises_eq_some]

/-- Settles O13: the two conditions keep the two forms that can raise from raising. -/
theorem everyInstructionCompletes : Obligations.EveryInstructionCompletes := by
  intro i s hfits hjr hcall
  refine ⟨_, exec_of_raises_none hfits (Option.eq_none_iff_forall_ne_some.mpr fun a hraises => ?_)⟩
  rcases Form.raises_eq_some.mp hraises with ⟨cc, e, hform, hholds, hout, -⟩ | ⟨nn, hform, hsp, -⟩
  · have hin := hjr cc e hform hholds
    omega
  · exact absurd (hcall nn hform) (Nat.not_le.mpr hsp)

end Sys2Proof.Machine
end

section
/-! PROOF. How a run of the driver ends (R227, R228): a run of `Cycles` steps within both budgets, and then one of the
three ends. -/
namespace Sys2Proof.Machine

/-! ### The three ends -/

/-- The cycle budget, if there is one, has not been reached (R227; log 12). -/
abbrev UnderLimit (limit : Option Nat) (spent : Nat) : Prop := ∀ n, limit = some n → spent < n

/-- The cycle budget has not been reached before any step of a run with these counts, `spent` being what was spent
before the run. -/
def UnderLimitBefore (limit : Option Nat) (spent : Nat) (counts : List Nat) : Prop :=
  ∀ k, k < counts.length → UnderLimit limit (spent + (counts.take k).sum)

/-- `EndsAt limit steps spent u r`: at `u`, with `steps` left of the step budget and `spent` cycles spent, the driver
makes no further turn but ends with `r` (R227). -/
inductive EndsAt (limit : Option Nat) (steps spent : Nat) (u : State) : RunEnd → Prop where
  | budget (h : steps = 0 ∨ ∃ n, limit = some n ∧ n ≤ spent) : EndsAt limit steps spent u (.budget u spent)
  | fault {e : Fault} (hsteps : 0 < steps) (hlimit : UnderLimit limit spent) (hs : step u = .fault e) :
      EndsAt limit steps spent u (.fault e)
  | undefinedOpcode {t : State} {bytes : List Byte} {start : Word} (hsteps : 0 < steps)
      (hlimit : UnderLimit limit spent) (hs : step u = .next t)
      (hret : t.returned = some (.undefinedOpcode bytes start)) :
      EndsAt limit steps spent u (.undefinedOpcode bytes start t spent)

theorem underLimitBefore_nil (limit : Option Nat) (spent : Nat) : UnderLimitBefore limit spent [] :=
  fun _ hk => absurd hk (Nat.not_lt_zero _)

theorem underLimitBefore_zero {limit : Option Nat} {counts : List Nat} :
    UnderLimitBefore limit 0 counts ↔ ∀ k, k < counts.length → UnderLimit limit (counts.take k).sum := by
  simp only [UnderLimitBefore, Nat.zero_add]

theorem underLimitBefore_cons {limit : Option Nat} {spent n : Nat} {counts : List Nat} :
    UnderLimitBefore limit spent (n :: counts) ↔
      UnderLimit limit spent ∧ UnderLimitBefore limit (spent + n) counts := by
  constructor
  · intro h
    refine ⟨h 0 (Nat.succ_pos _), fun k hk => ?_⟩
    have hnext := h (k + 1) (Nat.succ_lt_succ hk)
    rwa [List.take_succ_cons, List.sum_cons, ← Nat.add_assoc] at hnext
  · rintro ⟨hfirst, hrest⟩ k hk
    cases k with
    | zero => exact hfirst
    | succ k =>
      rw [List.take_succ_cons, List.sum_cons, ← Nat.add_assoc]
      exact hrest k (Nat.lt_of_succ_lt_succ hk)

/-- Counts only add up, so a budget not reached at the end of a run was not reached before. -/
theorem underLimitBefore_of_sum {limit : Option Nat} {spent : Nat} {counts : List Nat}
    (h : UnderLimit limit (spent + counts.sum)) : UnderLimitBefore limit spent counts := by
  intro k _ n hn
  have hall := h n hn
  have hsplit := List.sum_take_add_sum_drop counts k
  omega

/-! ### The driver makes a run and ends it -/

/-- A run of `Cycles` steps within both budgets is a part of the driver's run. -/
theorem drive_of_cycleRun {limit : Option Nat} {s u : State} {counts : List Nat} (hrun : CycleRun s counts u)
    (steps : Nat) {spent : Nat} (hunder : UnderLimitBefore limit spent counts) :
    drive limit (counts.length + steps) spent s = drive limit steps (spent + counts.sum) u := by
  induction hrun generalizing spent with
  | here s => rw [List.length_nil, Nat.zero_add, List.sum_nil, Nat.add_zero]
  | step hs hn _ ih =>
    obtain ⟨hfirst, hrest⟩ := underLimitBefore_cons.mp hunder
    rw [List.length_cons, Nat.add_right_comm, drive_cycles _ hfirst hs hn, ih hrest, List.sum_cons, Nat.add_assoc]

theorem drive_of_endsAt {limit : Option Nat} {steps spent : Nat} {u : State} {r : RunEnd}
    (h : EndsAt limit steps spent u r) : drive limit steps spent u = r := by
  cases h with
  | budget h =>
    rcases h with rfl | ⟨n, hn, hle⟩
    · rfl
    · exact drive_limit steps u hn hle
  | fault hsteps hlimit hs =>
    obtain ⟨k, rfl⟩ := Nat.exists_eq_add_one.mpr hsteps
    exact drive_fault k hlimit hs
  | undefinedOpcode hsteps hlimit hs hret =>
    obtain ⟨k, rfl⟩ := Nat.exists_eq_add_one.mpr hsteps
    exact drive_undefined k hlimit hs hret

/-- A run of `Cycles` steps within both budgets leads from `s` to where the driver ends with `r`. -/
def DrivesTo (limit : Option Nat) (steps spent : Nat) (s : State) (r : RunEnd) : Prop :=
  ∃ counts left u, CycleRun s counts u ∧ UnderLimitBefore limit spent counts ∧ steps = counts.length + left ∧
    EndsAt limit left (spent + counts.sum) u r

theorem EndsAt.drivesTo {limit : Option Nat} {steps spent : Nat} {s : State} {r : RunEnd}
    (h : EndsAt limit steps spent s r) : DrivesTo limit steps spent s r :=
  ⟨[], steps, s, .here s, underLimitBefore_nil _ _, (Nat.zero_add _).symm, h⟩

theorem DrivesTo.cons {limit : Option Nat} {steps spent n : Nat} {s t : State} {r : RunEnd}
    (hlimit : UnderLimit limit spent) (hs : step s = .next t) (hn : t.returned = some (.cycles n))
    (h : DrivesTo limit steps (spent + n) t r) : DrivesTo limit (steps + 1) spent s r := by
  obtain ⟨counts, left, u, hrun, hunder, rfl, hend⟩ := h
  refine ⟨n :: counts, left, u, .step hs hn hrun, underLimitBefore_cons.mpr ⟨hlimit, hunder⟩,
    Nat.add_right_comm _ _ _, ?_⟩
  rwa [List.sum_cons, ← Nat.add_assoc]

/-- Every run of the driver is a run of `Cycles` steps within both budgets, and one of the three ends. -/
theorem drivesTo_drive (limit : Option Nat) (steps spent : Nat) (s : State) :
    DrivesTo limit steps spent s (drive limit steps spent s) := by
  induction steps generalizing spent s with
  | zero => exact EndsAt.drivesTo (.budget (.inl rfl))
  | succ steps ih =>
    rcases drive_cases limit steps spent s with
      ⟨hreached, hd⟩ | ⟨hlimit, ⟨e, hs, hd⟩ | ⟨t, n, hs, hn, hd⟩ | ⟨t, bytes, hs, hret, hd⟩⟩
    · exact hd ▸ EndsAt.drivesTo (.budget (.inr hreached))
    · exact hd ▸ EndsAt.drivesTo (.fault (Nat.succ_pos _) hlimit hs)
    · exact hd ▸ (ih (spent + n) t).cons hlimit hs hn
    · exact hd ▸ EndsAt.drivesTo (.undefinedOpcode (Nat.succ_pos _) hlimit hs hret)

/-- The driver ends with `r` exactly when a run of `Cycles` steps within both budgets leads to where it ends so. -/
theorem drive_eq_iff {limit : Option Nat} {steps : Nat} {s : State} {r : RunEnd} :
    drive limit steps 0 s = r ↔
      ∃ counts left u, CycleRun s counts u ∧ UnderLimitBefore limit 0 counts ∧ steps = counts.length + left ∧
        EndsAt limit left counts.sum u r := by
  constructor
  · rintro rfl
    obtain ⟨counts, left, u, hrun, hunder, hsteps, hend⟩ := drivesTo_drive limit steps 0 s
    exact ⟨counts, left, u, hrun, hunder, hsteps, Nat.zero_add counts.sum ▸ hend⟩
  · rintro ⟨counts, left, u, hrun, hunder, rfl, hend⟩
    rw [drive_of_cycleRun hrun left hunder, Nat.zero_add]
    exact drive_of_endsAt hend

/-- The same for a run whose last step is within both budgets: the sum then bounds what was spent before each step. -/
theorem drive_eq_of_sum_lt {limit : Option Nat} {steps : Nat} {s u : State} {counts : List Nat} {r : RunEnd}
    (hrun : CycleRun s counts u) (hlen : counts.length < steps) (hlimit : UnderLimit limit counts.sum)
    (hend : ∀ left, 0 < left → EndsAt limit left counts.sum u r) : drive limit steps 0 s = r :=
  drive_eq_iff.mpr ⟨counts, steps - counts.length, u, hrun, underLimitBefore_of_sum (by rwa [Nat.zero_add]),
    (Nat.add_sub_cancel' (Nat.le_of_lt hlen)).symm, hend _ (Nat.sub_pos_of_lt hlen)⟩

theorem drive_eq_undefinedOpcode_iff {limit : Option Nat} {steps spent : Nat} {s t : State} {bytes : List Byte}
    {start : Word} : drive limit steps 0 s = .undefinedOpcode bytes start t spent ↔
      ∃ (counts : List Nat) (u : State), CycleRun s counts u ∧ step u = .next t ∧
        t.returned = some (.undefinedOpcode bytes start) ∧ spent = counts.sum ∧ counts.length < steps ∧
        UnderLimit limit counts.sum := by
  constructor
  · intro h
    obtain ⟨counts, left, u, hrun, -, rfl, hend⟩ := drive_eq_iff.mp h
    cases hend with
    | undefinedOpcode hleft hlimit hs hret =>
      exact ⟨counts, u, hrun, hs, hret, rfl, Nat.lt_add_of_pos_right hleft, hlimit⟩
  · rintro ⟨counts, u, hrun, hs, hret, rfl, hlen, hlimit⟩
    exact drive_eq_of_sum_lt hrun hlen hlimit fun _ hleft => .undefinedOpcode hleft hlimit hs hret

theorem drive_eq_fault_iff {limit : Option Nat} {steps : Nat} {s : State} {e : Fault} :
    drive limit steps 0 s = .fault e ↔
      ∃ (counts : List Nat) (u : State), CycleRun s counts u ∧ step u = .fault e ∧ counts.length < steps ∧
        UnderLimit limit counts.sum := by
  constructor
  · intro h
    obtain ⟨counts, left, u, hrun, -, rfl, hend⟩ := drive_eq_iff.mp h
    cases hend with
    | fault hleft hlimit hs => exact ⟨counts, u, hrun, hs, Nat.lt_add_of_pos_right hleft, hlimit⟩
  · rintro ⟨counts, u, hrun, hs, hlen, hlimit⟩
    exact drive_eq_of_sum_lt hrun hlen hlimit fun _ hleft => .fault hleft hlimit hs

theorem drive_eq_budget_iff {limit : Option Nat} {steps spent : Nat} {s u : State} :
    drive limit steps 0 s = .budget u spent ↔
      ∃ counts : List Nat, CycleRun s counts u ∧ spent = counts.sum ∧ counts.length ≤ steps ∧
        (counts.length = steps ∨ ∃ n, limit = some n ∧ n ≤ counts.sum) ∧
        ∀ k, k < counts.length → UnderLimit limit (counts.take k).sum := by
  constructor
  · intro h
    obtain ⟨counts, left, v, hrun, hunder, rfl, hend⟩ := drive_eq_iff.mp h
    cases hend with
    | budget hout =>
      exact ⟨counts, hrun, rfl, Nat.le_add_right _ _, hout.imp_left fun h => by rw [h, Nat.add_zero],
        underLimitBefore_zero.mp hunder⟩
  · rintro ⟨counts, hrun, rfl, hlen, hout, hunder⟩
    exact drive_eq_iff.mpr ⟨counts, steps - counts.length, u, hrun, underLimitBefore_zero.mpr hunder,
      (Nat.add_sub_cancel' hlen).symm, .budget (hout.imp_left fun h => by rw [h, Nat.sub_self])⟩

theorem drive_ne_refused (limit : Option Nat) (steps : Nat) (s : State) (r : Refusal) :
    drive limit steps 0 s ≠ .refused r := by
  intro h
  obtain ⟨counts, left, u, -, -, -, hend⟩ := drive_eq_iff.mp h
  cases hend

/-- Settles O59: the fault and budget cases of `drive_eq_iff`, among whose ends there is no refusal. -/
theorem faultAndBudgetRunEnds : Obligations.FaultAndBudgetRunEnds := fun limit steps s =>
  ⟨fun _ => drive_eq_fault_iff, fun _ _ => drive_eq_budget_iff, drive_ne_refused limit steps s⟩

/-! ### The step that ends a run normally -/

/-- What a step that returns UndefinedOpcode says of its bytes and of the state it leaves (R211). -/
theorem step_undefinedOpcode {u t : State} {bytes : List Byte} {start : Word} (hs : step u = .next t)
    (hret : t.returned = some (.undefinedOpcode bytes start)) :
    u.pc = start ∧ t = { u with pc := t.pc, returned := t.returned } ∧ t.pc.toNat = start.toNat + bytes.length ∧
      (bytes = [t.mem.read8 start] ∨ bytes = [t.mem.read8 start, t.mem.read8 (start + 1)]) ∧
      (Returned.undefinedOpcode bytes start).legal = true := by
  rcases step_next hs with ⟨i, -, hx⟩ | ⟨hfits, he, hb, rfl⟩ | ⟨hfits, he, hx, rfl⟩
  · rw [exec_returned hx] at hret
    cases hret
  · cases hret
    exact ⟨rfl, rfl, toNat_add_ofNat (n := 1) hfits, .inl rfl, Returned.legal_base u.pc he hb⟩
  · cases hret
    have hbytes : [Config.escape, u.mem.byteAt (u.pc.toNat + 1)] = [u.mem.read8 u.pc, u.mem.read8 (u.pc + 1)] := by
      rw [he, State.read8_pc_succ (Nat.le_of_succ_le hfits)]
    exact ⟨rfl, rfl, toNat_add_ofNat (n := 2) hfits, .inr hbytes, Returned.legal_extended u.pc hx⟩

/-- A count that a step returns is one of R16's five. -/
theorem step_cycles_mem {s t : State} {n : Nat} (hs : step s = .next t) (hn : t.returned = some (.cycles n)) :
    n ∈ [4, 8, 12, 16, 24] := by
  rcases step_next hs with ⟨i, -, hx⟩ | ⟨-, -, -, rfl⟩ | ⟨-, -, -, rfl⟩
  · rw [exec_returned hx] at hn
    cases hn
    exact Form.cycles_mem i.form s
  · cases hn
  · cases hn

/-- The cycles spent on a run are a multiple of 4, each of R16's five counts being one. -/
theorem four_dvd_sum_of_cycleRun {s u : State} {counts : List Nat} (hrun : CycleRun s counts u) :
    4 ∣ counts.sum := by
  induction hrun with
  | here s => exact Nat.dvd_zero 4
  | step hs hn _ ih =>
    have hfive : ∀ n ∈ [4, 8, 12, 16, 24], 4 ∣ n := by decide
    rw [List.sum_cons]
    exact Nat.dvd_add (hfive _ (step_cycles_mem hs hn)) ih

/-- Settles O58: the normal case of `drive_eq_iff`, what its last step says of the bytes and the two states, and counts
that are multiples of 4. -/
theorem normalRunEnd : Obligations.NormalRunEnd := by
  refine fun limit steps s t bytes start spent => ⟨drive_eq_undefinedOpcode_iff, fun h => ?_⟩
  obtain ⟨counts, u, hrun, hs, hret, rfl, -, -⟩ := drive_eq_undefinedOpcode_iff.mp h
  obtain ⟨-, -, hpc, hbytes, hlegal⟩ := step_undefinedOpcode hs hret
  refine ⟨hbytes, hlegal, hpc, Nat.mod_eq_zero_of_dvd (four_dvd_sum_of_cycleRun hrun), fun _ v _ hv => ?_⟩
  obtain ⟨hstart, hframe, -⟩ := step_undefinedOpcode hv hret
  exact ⟨hstart, hframe⟩

end Sys2Proof.Machine
end

section
/-! PROOF. What a step returns (R243, R250) and what `init()` keeps (R241). -/
namespace Sys2Proof.Machine

/-! ### `init()` -/

/-- `init()` takes memory alone from the state before it (R241). -/
theorem initWith_congr {s t : State} (p : Word) (h : s.mem = t.mem) : initWith p s = initWith p t := by
  rw [initWith, initWith, h]

@[simp] theorem initWith_mem (p : Word) (s : State) : (initWith p s).mem = s.mem := rfl

/-- Settles O48: `init()` is a function of memory, which it keeps. -/
theorem initForgetsRegistersAndKeepsMemory : Obligations.InitForgetsRegistersAndKeepsMemory :=
  ⟨fun p _ _ h => initWith_congr p h, fun p s x => congrArg (Memory.read8 · x) (initWith_mem p s),
    fun p q s => initWith_congr p (initWith_mem q s)⟩

/-! ### The cycle count -/

/-- Every count of R250's table is a positive multiple of 4 (R243). -/
theorem Form.cycles_pos_and_mod_four (f : Form) (s : State) : 0 < f.cycles s ∧ f.cycles s % 4 = 0 := by
  have hfive : ∀ n ∈ [4, 8, 12, 16, 24], 0 < n ∧ n % 4 = 0 := by decide
  exact hfive _ (f.cycles_mem s)

/-- Settles O18: an instruction that answers returns its form's count, one of R16's five. -/
theorem cycleCountTable : Obligations.CycleCountTable := fun i s _ h =>
  ⟨exec_returned h, Form.cycles_pos_and_mod_four i.form s⟩

/-! ### Replacing the recorded value before a step

Every effect of an instruction commutes with the replacement, and the instruction's own `return Cycles(n)` then
overwrites the recorded value, so that nothing of the replacement is left. -/

/-- The state with another value recorded as returned (log 2). -/
def State.withReturned (r : Option Returned) (s : State) : State := { s with returned := r }

@[simp] theorem State.after_withReturned (r : Option Returned) (s : State) (len n : Nat) :
    (s.withReturned r).after len n = s.after len n := rfl

@[simp] theorem State.withReturned_r8 (r : Option Returned) (s : State) (q : R8) :
    (s.withReturned r).r8 q = s.r8 q := rfl

@[simp] theorem State.withReturned_loadAt (r : Option Returned) (s : State) (p : Pair) :
    (s.withReturned r).loadAt p = s.loadAt p := rfl

@[simp] theorem State.withReturned_setR8 (r : Option Returned) (s : State) (q : R8) (v : Byte) :
    (s.withReturned r).setR8 q v = (s.setR8 q v).withReturned r := by cases q <;> rfl

@[simp] theorem State.withReturned_setPair (r : Option Returned) (s : State) (p : Pair) (w : Word) :
    (s.withReturned r).setPair p w = (s.setPair p w).withReturned r := by cases p <;> rfl

@[simp] theorem State.withReturned_logic (r : Option Returned) (s : State) (op : LogicOp) (v : Byte) :
    (s.withReturned r).logic op v = (s.logic op v).withReturned r := by
  rw [State.logic_eq, State.logic_eq]; rfl

@[simp] theorem State.withReturned_inc (r : Option Returned) (s : State) (q : R8) :
    (s.withReturned r).inc q = (s.inc q).withReturned r := by
  rw [State.inc_eq, State.inc_eq, State.withReturned_r8, State.withReturned_setR8]; rfl

theorem Form.raises_withReturned (r : Option Returned) (f : Form) (s : State) :
    Form.raises (s.withReturned r) f = Form.raises s f := by cases f <;> rfl

/-- A form's result does not depend on the value returned before it (R243). Where the update is by cases on a register,
a pair or an operation, the lemmas above carry the replacement through it. -/
theorem Form.result_withReturned (r : Option Returned) (f : Form) (s : State) :
    Form.result (s.withReturned r) f = Form.result s f := by
  cases f with
  | ldRN _ _ | ldRR _ _ | ldRHL _ | ldPairNN _ _ | logicR _ _ | logicHL _ | logicN _ _ | incR _ => simp [Form.result]
  | _ => rfl

theorem exec_withReturned (r : Option Returned) (i : Instr) (s : State) : exec i (s.withReturned r) = exec i s := by
  rw [← mapNext_id (exec i (s.withReturned r)), ← mapNext_id (exec i s)]
  exact exec_related rfl (Form.raises_withReturned r i.form s) (Form.result_withReturned r i.form s)

/-- A fetch reads pc and memory alone (R92): a change of the state beside these two commutes with it. -/
theorem fetchInstr_mapAfter {k : State → State} {s : State} (hpc : (k s).pc = s.pc) (hmem : (k s).mem = s.mem)
    (hadvance : ∀ p : Word, { k s with pc := p } = k { s with pc := p }) :
    fetchInstr (k s) = (fetchInstr s).mapAfter k := by
  rw [fetchInstr_eq, fetchInstr_eq, hadvance, hadvance, hpc, hmem]
  split_ifs
  · cases extendedTable (s.mem.byteAt (s.pc.toNat + 1)) <;> rfl
  · rfl
  · cases baseTable (s.mem.read8 s.pc) with
    | none => rfl
    | some row =>
      dsimp only
      split_ifs <;> rfl
  · rfl

/-- A step overwrites the recorded value without reading it (R243): an instruction with its count, bytes without a
handler with UndefinedOpcode. -/
theorem step_withReturned (r : Option Returned) (s : State) : step (s.withReturned r) = step s := by
  rw [step, step, fetchInstr_mapAfter (k := State.withReturned r) rfl rfl fun _ => rfl]
  cases fetchInstr s with
  | instr i => exact exec_withReturned r i s
  | undefined bytes after => rfl
  | fault e => rfl

/-- Settles O17: fetch, fault and result do not read the recorded value, and every next state overwrites it. -/
theorem returnedValueIsNeverRead : Obligations.ReturnedValueIsNeverRead := fun s r => step_withReturned r s

end Sys2Proof.Machine
end
